-- ==== Sys2Proof/Word.lean ====
section
/-! DEFINITION. The byte and the byte string (00_scope.md R12), the only data the wire carries. -/

namespace Sys2Proof

/-- R12: an 8-bit unsigned value, bits numbered from 0. -/
abbrev Byte := BitVec 8

/-- R12: a finite sequence of bytes. -/
abbrev ByteString := List Byte

end Sys2Proof
end

