-- ==== Sys2Proof/Machine/Ascii.lean ====
section
/-! DEFINITION. The bytes of the wire (30_encoding.md R70): the printable characters and CR have their ASCII codes (from
the standard the spec names, I1), the acknowledge is 0x06 (00_scope.md R8). -/

namespace Sys2Proof.Machine

/-- R70: `T`, the marker of an outgoing frame line. -/
def chT : Byte := 0x54#8
/-- R70: `t`, the marker of an incoming frame line. -/
def cht : Byte := 0x74#8
/-- R70: `S`, bitrate select. -/
def chS : Byte := 0x53#8
/-- R70: `O`, bus open. -/
def chO : Byte := 0x4F#8
/-- R70: `C`, bus close. -/
def chC : Byte := 0x43#8
/-- R9, R70: CR, the line terminator. -/
def cr : Byte := 0x0D#8
/-- R8: the acknowledge byte. -/
def ackByte : Byte := 0x06#8

end Sys2Proof.Machine
end

