-- ==== Sys2Proof/Config.lean ====
section
/-! DEFINITION. The constants (00_scope.md R6 to R9), the parameters (R11), the environment's draws (20_memory.md R53 to
R57) and the free values no proof can evaluate. -/

namespace Sys2Proof

/-- R6: the data-length limit LEN_MAX. -/
abbrev Config.lenMax : Nat := 8

/-- R7: the largest encodable identifier ID_ENC_MAX. -/
abbrev Config.idEncMax : Nat := 0xFFF

/-- R11: the two values of ACK_TIMEOUT_POLICY, what a timed-out ACK read does (R146). -/
inductive AckTimeoutPolicy where
  | warn
  | error
  deriving DecidableEq, Repr, Inhabited

/-- R11: the parameters the model takes as arguments. They are plain data, fixed for a machine; every statement
holds for every value of them. DESIGN CHOICE, log entry 1. -/
structure Params where
  hexAcceptLower   : Bool
  ackTimeoutPolicy : AckTimeoutPolicy
  deriving DecidableEq, Repr, Inhabited

/-- R11: the defaults the spec uses in its examples, HEX_ACCEPT_LOWER true and ACK_TIMEOUT_POLICY warn. -/
def Params.default : Params := { hexAcceptLower := true, ackTimeoutPolicy := .warn }

/-- R11, R33, R211: a capture time, a value of the parameter type `Timestamp`. A token that nothing computes with or
compares. DESIGN CHOICE, log entry 9. -/
structure Timestamp where
  token : Nat
  deriving DecidableEq, Repr, Inhabited

/-- R25: a positive duration. No rule reads how long it is (R57). -/
structure Duration where
  units    : Nat
  positive : 0 < units
  deriving DecidableEq, Repr

/-- R53: the answer of `Acquire`. On `ok` the receive stream of the new handle either stands as it was (`none`) or
holds any other bytes (`some bs`), since R243 leaves its contents at each OPEN unspecified. DEDUCED, log entry 14. -/
inductive AcquireDraw where
  | ok (found : Option ByteString)
  | fail
  deriving DecidableEq, Repr, Inhabited

/-- R54: the answer of `TxWrite`. On `ioError` the first `sent` bytes were written (all of them where there are no more). -/
inductive WriteDraw where
  | ok
  | ioError (sent : Nat)
  deriving DecidableEq, Repr, Inhabited

/-- R55, R56: the environment's choice at a read. An answer the laws do not allow in the state counts as `deliver`.
DESIGN CHOICE, log entry 15. -/
inductive ReadDraw where
  /-- what the stream holds, or a wait where it does not hold the answer yet -/
  | deliver
  | ioError
  /-- a timeout; a line read then loses the first `lost` bytes (all of them where there are no more) -/
  | timeout (lost : Nat)
  /-- a line read's unterminated run: all of the stream, without a CR -/
  | endOfStream
  deriving DecidableEq, Repr, Inhabited

/-- What the environment draws for one step: an answer for each primitive (a step calls at most one), the capture time
`Now` (R11), and the bytes that arrive if the session has no step (R160). -/
structure Draw where
  acquire : AcquireDraw
  write   : WriteDraw
  read    : ReadDraw
  now     : Timestamp
  arrival : ByteString
  deriving DecidableEq, Repr, Inhabited

/-- Free value: the draw of the environment for the n-th step that no schedule covers. Log entry 2. -/
opaque Config.freeDraw : Nat → Draw

/-- Free value: the receive stream at reset, "unspecified (any byte string)" (R40, R243). Log entry 3. -/
opaque Config.resetRxq : ByteString

end Sys2Proof
end

