-- ==== Sys2Proof/Syntax.lean ====
section
/-! DEFINITION. The operand records (10_state.md R25, R32), the host port's word (30_encoding.md R84) and the one
instruction type, a constructor per row of the opcode table. -/

namespace Sys2Proof

/-- R32: a CanFrame as a raw record; out-of-range values can be written down and are rejected by Encode (C4). -/
structure CanFrame where
  id        : Nat
  length    : Nat
  payload   : ByteString
  timestamp : Option Timestamp
  deriving DecidableEq, Repr, Inhabited

/-- R25: the configuration record. `transportId` is an opaque value, written as the bytes of its name (R12). DESIGN CHOICE,
log entry 10. -/
structure AdapterConfig where
  transportId : ByteString
  baud        : Nat
  readTimeout : Option Duration
  bitrateCode : Nat
  debug       : Bool
  deriving DecidableEq, Repr, Inhabited

/-- R84: what the host request port carries: the 3-bit operation code and the operands (each request uses its own). -/
structure PortWord where
  op    : BitVec 3
  frame : CanFrame
  line  : ByteString
  cfg   : AdapterConfig
  deriving DecidableEq, Repr

/-- The instructions: host requests, the teardown input, the internal sendCommand, and the wire lines. -/
inductive Instr where
  /-- ENCODE (R103) -/
  | encode (frame : CanFrame)
  /-- DECODE (R107): a line, marker included, CR excluded -/
  | decode (line : ByteString)
  /-- OPEN (R142) -/
  | openReq (cfg : AdapterConfig)
  /-- SEND (R147) -/
  | send (frame : CanFrame)
  /-- RECEIVE (R148) -/
  | receive
  /-- CLOSE (R149) -/
  | close
  /-- RESERVED_000 (R84) -/
  | reserved000
  /-- RESERVED_111 (R84) -/
  | reserved111
  /-- TEARDOWN (R150) -/
  | teardown
  /-- SENDCMD (R145): internal, one label step of sendCommand(text) -/
  | sendCmd (text : ByteString)
  /-- WIRE_T (R73): the outgoing line of a frame -/
  | wireTx (frame : CanFrame)
  /-- WIRE_t (R74): an incoming frame line, marker included, CR excluded; its letters keep their case -/
  | wireRx (line : ByteString)
  /-- WIRE_S (R75) -/
  | wireS (code : Nat)
  /-- WIRE_O (R76) -/
  | wireO
  /-- WIRE_C (R77) -/
  | wireC
  /-- WIRE_ACK (R78) -/
  | wireAck
  deriving DecidableEq, Repr

/-- What carries an instruction: the host port, the teardown input, bytes on the wire (with their CR, except the ACK), or
the session's own call of sendCommand. -/
inductive InstrWord where
  | port (w : PortWord)
  | teardownPin
  | wire (bytes : ByteString)
  | command (text : ByteString)
  deriving DecidableEq, Repr

end Sys2Proof
end

