-- ==== Sys2Proof/Machine/Errors.lean ====
section
/-! DEFINITION. The error taxonomy with its sub-reasons and codes (60_exceptions.md R200 to R202), warnings, and responses
(10_state.md R35, 30_encoding.md R85). -/

namespace Sys2Proof.Machine

/-- R201: why Encode fails. -/
inductive EncReason where
  | idRange
  | lenRange
  | lenMismatch
  deriving DecidableEq, Repr

/-- R201: why Decode fails with DecodingError. -/
inductive DecReason where
  | short
  | badIdHex
  | badLenHex
  | lenRange
  | trailing
  | badDataHex
  deriving DecidableEq, Repr

/-- R201: why a line is no frame line. -/
inductive FrmReason where
  | badMarker
  | noTerminator
  deriving DecidableEq, Repr

/-- R201: which state check failed. -/
inductive StateReason where
  | notClosed
  | notOpen
  deriving DecidableEq, Repr

/-- R201: which transport primitive failed. -/
inductive TransportReason where
  | acquireFailed
  | writeFailed
  | readFailed
  deriving DecidableEq, Repr

/-- R201: which read timed out. -/
inductive TimeoutReason where
  | readTimeout
  | ackTimeout
  deriving DecidableEq, Repr

/-- R200: the six error kinds that end an operation, each with its sub-reason. AckMismatch is a warning (R202). -/
inductive Error where
  | encoding (r : EncReason)
  | decoding (r : DecReason)
  | framing (r : FrmReason)
  | state (r : StateReason)
  | transport (r : TransportReason)
  | timeout (r : TimeoutReason)
  deriving DecidableEq, Repr

/-- R200: the code of an error's kind; 0 is success, and 7 is the warning AckMismatch. -/
def Error.kindCode : Error → Nat
  | .encoding _ => 1
  | .decoding _ => 2
  | .framing _ => 3
  | .state _ => 4
  | .transport _ => 5
  | .timeout _ => 6

/-- R200: the code of the warning kind. -/
def ackMismatchCode : Nat := 7

/-- R201: the code of an error's sub-reason. -/
def Error.subCode : Error → Nat
  | .encoding .idRange => 1
  | .encoding .lenRange => 2
  | .encoding .lenMismatch => 3
  | .decoding .short => 1
  | .decoding .badIdHex => 2
  | .decoding .badLenHex => 3
  | .decoding .lenRange => 4
  | .decoding .trailing => 5
  | .decoding .badDataHex => 6
  | .framing .badMarker => 1
  | .framing .noTerminator => 2
  | .state .notClosed => 1
  | .state .notOpen => 2
  | .transport .acquireFailed => 1
  | .transport .writeFailed => 2
  | .transport .readFailed => 3
  | .timeout .readTimeout => 1
  | .timeout .ackTimeout => 2

/-- R31, R202: an AckMismatch event, the command text without CR and the byte read (none for a timed-out read). -/
structure Warning where
  text     : ByteString
  observed : Option Byte
  deriving DecidableEq, Repr

/-- R84: a successful result. -/
inductive Value where
  | unit
  | line (l : ByteString)
  | frame (f : CanFrame)
  deriving DecidableEq, Repr

/-- R35: what the response port carries. -/
inductive Response where
  | ok (v : Value) (warnings : List Warning)
  | err (e : Error) (warnings : List Warning)
  deriving DecidableEq, Repr

/-- R85: the status code, 0 for success or the code of the error's kind. -/
def Response.statusCode : Response → Nat
  | .ok _ _ => 0
  | .err e _ => e.kindCode

/-- R85, R201: the sub-reason code; a success carries none. -/
def Response.subReason : Response → Option Nat
  | .ok _ _ => none
  | .err e _ => some e.subCode

end Sys2Proof.Machine
end

