-- ==== Sys2Proof/Machine/Codec.lean ====
section
/-! DEFINITION. The Frame Codec (40_codec.md): hex primitives, Encode, Decode, the command-line builders and the ACK test.
Pure functions of their operands and of HEX_ACCEPT_LOWER. -/

namespace Sys2Proof.Machine

/-- R100: the character of a hex digit, uppercase. -/
def hexChar (d : Nat) : Byte :=
  if d < 10 then BitVec.ofNat 8 (0x30 + d) else BitVec.ofNat 8 (0x41 + (d - 10))

/-- R100: the two digits of a byte, high nibble first. -/
def hex2 (b : Byte) : ByteString :=
  [hexChar (b.toNat / 16), hexChar (b.toNat % 16)]

/-- R100: the three digits of an identifier, most significant first. -/
def hex3 (v : Nat) : ByteString :=
  [hexChar (v / 256 % 16), hexChar (v / 16 % 16), hexChar (v % 16)]

/-- R101: the bytes Decode takes as hex digits. -/
def isHex (lower : Bool) (c : Byte) : Bool :=
  (decide (0x30 ≤ c.toNat) && decide (c.toNat ≤ 0x39)) ||
  ((decide (0x41 ≤ c.toNat) && decide (c.toNat ≤ 0x46)) ||
   ((decide (0x61 ≤ c.toNat) && decide (c.toNat ≤ 0x66)) && lower))

/-- R101: the value of a hex digit; used only where `isHex` holds. -/
def hexVal (c : Byte) : Nat :=
  if c.toNat ≤ 0x39 then c.toNat - 0x30
  else if c.toNat ≤ 0x46 then c.toNat - 0x41 + 10
  else c.toNat - 0x61 + 10

/-- R73: the fields of an outgoing frame line, after its marker. -/
def frameFields (f : CanFrame) : ByteString :=
  hex3 f.id ++ hexChar f.length :: f.payload.flatMap hex2

/-- R103, R104: Encode. The timestamp is not read (R105). -/
def encodeFrame (f : CanFrame) : Except EncReason ByteString :=
  if Config.idEncMax < f.id then .error .idRange
  else if Config.lenMax < f.length then .error .lenRange
  else if f.payload.length ≠ f.length then .error .lenMismatch
  else .ok (chT :: frameFields f)

/-- R107: the data field, two digits a byte, high digit first. -/
def decodeData (lower : Bool) : ByteString → Option ByteString
  | hi :: lo :: rest =>
    if isHex lower hi && isHex lower lo then
      (decodeData lower rest).map (BitVec.ofNat 8 (16 * hexVal hi + hexVal lo) :: ·)
    else none
  | [] => some []
  | [_] => none

/-- R107, R108: Decode of a line with its marker and without its CR. The checks stand in the spec's order. -/
def decodeLine (lower : Bool) (line : ByteString) : Except Error CanFrame :=
  match line with
  | [] => .error (.framing .badMarker)
  | m :: body =>
    if m ≠ cht then .error (.framing .badMarker)
    else match body with
      | c1 :: c2 :: c3 :: c4 :: data =>
        if !(isHex lower c1 && isHex lower c2 && isHex lower c3) then .error (.decoding .badIdHex)
        else if !isHex lower c4 then .error (.decoding .badLenHex)
        else if Config.lenMax < hexVal c4 then .error (.decoding .lenRange)
        else if line.length < 5 + 2 * hexVal c4 then .error (.decoding .short)
        else if 5 + 2 * hexVal c4 < line.length then .error (.decoding .trailing)
        else match decodeData lower data with
          | none => .error (.decoding .badDataHex)
          | some payload =>
            .ok { id := 256 * hexVal c1 + 16 * hexVal c2 + hexVal c3,
                  length := hexVal c4, payload := payload, timestamp := none }
      | _ => .error (.decoding .short)

/-- R113: the bitrate-select line, without CR. -/
def sLine (code : Nat) : ByteString := [chS, BitVec.ofNat 8 (0x30 + code)]

/-- R114: the bus-open line, without CR. -/
def oLine : ByteString := [chO]

/-- R115: the bus-close line, without CR. -/
def cLine : ByteString := [chC]

/-- R116: the ACK test. -/
def isAck (b : Byte) : Bool := b == ackByte

end Sys2Proof.Machine
end

