-- ==== Sys2Proof/WellFormed.lean ====
section
/-! DEFINITION. Which operands the spec calls well formed. -/

namespace Sys2Proof

/-- R26: the bit-rate-select code is a single decimal digit. -/
def AdapterConfig.wf (c : AdapterConfig) : Bool := decide (c.bitrateCode ≤ 9)

/-- R103: the frames Encode accepts. -/
def CanFrame.encodable (f : CanFrame) : Bool :=
  decide (f.id ≤ Config.idEncMax) && (decide (f.length ≤ Config.lenMax) && decide (f.payload.length = f.length))

/-- Whether an instruction is one its word can stand for, `lower` being HEX_ACCEPT_LOWER. A host request carries any
operands but an ill-formed configuration (R26); sendCommand's text holds no CR (R145); an outgoing frame line carries
the fields of an encodable frame and no timestamp (R73, R105); an incoming one is a line Decode accepts (R74); the
bitrate digit is 0 to 9 (R75). -/
def Instr.wf (lower : Bool) : Instr → Bool
  | .encode _ => true
  | .decode _ => true
  | .openReq c => c.wf
  | .send _ => true
  | .receive => true
  | .close => true
  | .reserved000 => true
  | .reserved111 => true
  | .teardown => true
  | .sendCmd text => !text.contains Machine.cr
  | .wireTx f => f.encodable && f.timestamp.isNone
  | .wireRx line => (Machine.decodeLine lower line).toBool
  | .wireS code => decide (code ≤ 9)
  | .wireO => true
  | .wireC => true
  | .wireAck => true

end Sys2Proof
end

