-- ==== Sys2Proof/Decode.lean ====
section
/-! DEFINITION. The decoder of what carries an instruction (30_encoding.md R73 to R84), total on any word and rejecting by
name, and the encoder after it. -/

namespace Sys2Proof

open Machine

/-- Why bytes on the wire are no instruction (R81 to R83). -/
inductive Rejection where
  /-- no byte at all (R81) -/
  | empty
  /-- a line without its CR (R79) -/
  | unterminated
  /-- a first byte that marks no line of the block (R81, R83) -/
  | unknownMarker (b : Byte)
  /-- a known marker with fields that are not of its format (R82) -/
  | badFields (marker : Byte)
  deriving DecidableEq, Repr

/-- R84: the request a port word carries; every value of the 3-bit code is a row of the table. -/
def decodeRequest (w : PortWord) : Instr :=
  if w.op = 0#3 then .reserved000
  else if w.op = 1#3 then .encode w.frame
  else if w.op = 2#3 then .decode w.line
  else if w.op = 3#3 then .openReq w.cfg
  else if w.op = 4#3 then .send w.frame
  else if w.op = 5#3 then .receive
  else if w.op = 6#3 then .close
  else .reserved111

/-- R79: the line before its closing CR. -/
def stripCR (bytes : ByteString) : Option ByteString :=
  if bytes.getLast? = some cr then some bytes.dropLast else none

/-- R73: an outgoing frame line, uppercase digits only (R71). The fields are those of an incoming line (R74), so the marker is
swapped and the codec reads them (R111). -/
def decodeTLine (fields : ByteString) : Except Rejection Instr :=
  match decodeLine false (cht :: fields) with
  | .ok f => .ok (.wireTx f)
  | .error _ => .error (.badFields chT)

/-- R75: the digit of a bitrate-select line. -/
def decodeSLine (fields : ByteString) : Except Rejection Instr :=
  match fields with
  | [d] => if 0x30 ≤ d.toNat ∧ d.toNat ≤ 0x39 then .ok (.wireS (d.toNat - 0x30)) else .error (.badFields chS)
  | _ => .error (.badFields chS)

/-- R73 to R77: a line by its marker, its CR already taken off. -/
def decodeWireLine (lower : Bool) (m : Byte) (fields : ByteString) : Except Rejection Instr :=
  if m = chT then decodeTLine fields
  else if m = cht then
    match decodeLine lower (m :: fields) with
    | .ok _ => .ok (.wireRx (m :: fields))
    | .error _ => .error (.badFields cht)
  else if m = chS then decodeSLine fields
  else if m = chO then (if fields = [] then .ok .wireO else .error (.badFields chO))
  else if m = chC then (if fields = [] then .ok .wireC else .error (.badFields chC))
  else .error (.unknownMarker m)

/-- R73 to R83: bytes on the wire, a line with its CR or the ACK byte alone (R78). -/
def decodeWire (lower : Bool) (bytes : ByteString) : Except Rejection Instr :=
  match bytes with
  | [] => .error .empty
  | m :: rest =>
    if m = ackByte then (if rest = [] then .ok .wireAck else .error (.badFields ackByte))
    else match stripCR rest with
      | none => .error .unterminated
      | some fields => decodeWireLine lower m fields

/-- The instruction of a word. -/
def decode (lower : Bool) : InstrWord → Except Rejection Instr
  | .port w => .ok (decodeRequest w)
  | .teardownPin => .ok .teardown
  | .wire bytes => decodeWire lower bytes
  | .command text => .ok (.sendCmd text)

/-- A port word with code `op` and no operands. -/
def barePort (op : BitVec 3) : PortWord := { op := op, frame := default, line := [], cfg := default }

/-- The word of an instruction, from the same tables: R84 for the requests, R73 to R78 for the wire. -/
def encode : Instr → InstrWord
  | .encode f => .port { barePort 1#3 with frame := f }
  | .decode l => .port { barePort 2#3 with line := l }
  | .openReq c => .port { barePort 3#3 with cfg := c }
  | .send f => .port { barePort 4#3 with frame := f }
  | .receive => .port (barePort 5#3)
  | .close => .port (barePort 6#3)
  | .reserved000 => .port (barePort 0#3)
  | .reserved111 => .port (barePort 7#3)
  | .teardown => .teardownPin
  | .sendCmd text => .command text
  | .wireTx f => .wire (chT :: (frameFields f ++ [cr]))
  | .wireRx line => .wire (line ++ [cr])
  | .wireS code => .wire (sLine code ++ [cr])
  | .wireO => .wire (oLine ++ [cr])
  | .wireC => .wire (cLine ++ [cr])
  | .wireAck => .wire [ackByte]

/-- The bytes of a number, `n` of them, most significant first: the table writes a wire line as one number whose most
significant byte comes first on the wire (WIRE_S is 0x53300D). -/
def bytesOfNat (n w : Nat) : ByteString :=
  match n with
  | 0 => []
  | k + 1 => BitVec.ofNat 8 (w / 256 ^ k) :: bytesOfNat k w

/-- The word whose bits the opcode table numbers as `w`. One byte below 8 is the port's req_op; any other is the bytes of a
wire line. One byte of value 6 is CLOSE's code and also the ACK byte: the table gives no bit that tells the two carriers
apart, and the host port is taken. Log entry 11. -/
def tableWord (nbits w : Nat) : InstrWord :=
  if nbits ≤ 8 ∧ w < 8 then .port (barePort (BitVec.ofNat 3 w))
  else .wire (bytesOfNat (nbits / 8) w)

/-- The instruction the decoder reads from a word of the opcode table, under the default parameters. -/
def decodeTableWord (nbits w : Nat) : Option Instr := (decode true (tableWord nbits w)).toOption

end Sys2Proof
end

