-- ==== Sys2Proof/Machine/State.lean ====
section
/-! DEFINITION. The state as plain data (10_state.md R22 to R36), the reasons a step stops, and reset (R40). -/

namespace Sys2Proof.Machine

/-- R22: the lifecycle; the value 3 is unrepresentable (I9). -/
inductive Lifecycle where
  | closed
  | opening
  | opened
  deriving DecidableEq, Repr

/-- R22: the spec's 2-bit code of the lifecycle register. -/
def Lifecycle.code : Lifecycle → BitVec 2
  | .closed => 0#2
  | .opening => 1#2
  | .opened => 2#2

/-- R23: the micro-step register. -/
inductive Phase where
  | idle
  | opAcquire
  | opWriteS
  | opAckS
  | opWriteO
  | opAckO
  | sdWrite
  | sdAck
  | rcRead
  | clWrite
  | clRelease
  deriving DecidableEq, Repr

/-- R30: what follows the close sequence. -/
inductive CloseCont where
  | reply (v : Value)
  | replyErr (e : Error)
  | halt
  deriving DecidableEq, Repr

/-- R36, R53: an acquired handle, opened for these three fields of the configuration. -/
structure TransportHandle where
  transportId : ByteString
  baud        : Nat
  readTimeout : Option Duration
  deriving DecidableEq, Repr

/-- R160: one entry of the schedule, which agent moves at a step. -/
inductive Input where
  /-- an environment step appends bytes to the receive stream -/
  | append (bytes : ByteString)
  /-- a teardown step -/
  | teardown
  /-- a session step, and the environment's draw for it -/
  | session (d : Draw)
  deriving DecidableEq, Repr

/-- The whole machine. -/
structure State where
  /-- R22 -/
  st        : Lifecycle
  /-- R23 -/
  ph        : Phase
  /-- R24 -/
  held      : Bool
  /-- R25 to R27 -/
  cfg       : Option AdapterConfig
  /-- R28 -/
  lineBuf   : ByteString
  /-- R29 -/
  opWarn    : List Warning
  /-- R30 -/
  closeCont : CloseCont
  /-- R31 -/
  warnLog   : List Warning
  /-- R34 -/
  halted    : Bool
  /-- R35 -/
  resp      : Option Response
  /-- R36: bytes written toward the adapter so far -/
  tx        : ByteString
  /-- R36: bytes received and not yet read -/
  rxq       : ByteString
  /-- R36: the transport's side of `held` -/
  handle    : Option TransportHandle
  /-- R142: the operand of the OPEN in flight, read at OpAcquire. Log entry 5. -/
  openReq   : Option AdapterConfig
  /-- R11: the parameters; no step writes them. Log entry 1. -/
  params    : Params
  /-- R140, R158: the requests the caller will present, oldest first. The model's own field, log entry 6. -/
  requests  : List PortWord
  /-- R160: the schedule, next move first. The model's own field, log entry 7. -/
  inputs    : List Input
  /-- R14, R53 to R57: the environment's draw for this step. The model's own field, log entry 2. -/
  draw      : Draw
  /-- how many free draws were taken. The model's own field, log entry 2. -/
  draws     : Nat
  deriving DecidableEq, Repr

/-- Why the machine stops with a fault. The block itself has no fault (R217): these two name states outside the invariant
(R42), which no run from reset reaches. Log entry 17. -/
inductive Fault where
  /-- Raised by a label that would call a primitive other than Acquire while `held` is false, which R24 excludes. Safe. -/
  | noHandle
  /-- Raised by the OpAcquire label with no OPEN operand, and by the S command's labels with no configuration. Safe. -/
  | noConfig
  deriving DecidableEq, Repr

/-- Why there is no step for an instruction. Log entry 16. -/
inductive Refusal where
  /-- An instruction with no meaning yet; only exec's arms answer it. Safe. -/
  | notModelled (mnemonic : String)
  /-- Raised by the reserved request codes (R84, I13). Safe. -/
  | reservedCode (code : BitVec 3)
  /-- Raised by OPEN whose bitrate_code is outside 0..9 (R26, I14). Safe. -/
  | illFormedConfig (code : Nat)
  /-- Raised by a request executed while an operation is in flight (R140, I16). Safe. -/
  | portBusy
  /-- Raised by everything the block would do once `halted` is true (R34, R251). Safe. -/
  | halted
  /-- Raised by sendCommand when its text is not the command in flight: the caller cannot request it (R145). Safe. -/
  | notInFlight
  /-- Raised by an outgoing wire line when the session is not at the label that forms it (R51, R83). Safe. -/
  | lineNotFormed
  deriving DecidableEq, Repr

/-- R40, R240: the creation of a session. The receive stream and the draw are free values (log entries 2 and 3). -/
def State.reset : State where
  st := .closed
  ph := .idle
  held := false
  cfg := none
  lineBuf := []
  opWarn := []
  closeCont := .reply .unit
  warnLog := []
  halted := false
  resp := none
  tx := []
  rxq := Config.resetRxq
  handle := none
  openReq := none
  params := Params.default
  requests := []
  inputs := []
  draw := Config.freeDraw 0
  draws := 1

end Sys2Proof.Machine
end

