-- ==== Sys2Proof/Machine/Flags.lean ====
section
/-! DEFINITION. The block has no status flags or condition codes (10_state.md R39); its sticky indications are the warning log and
`halted`. Here: raising a warning (60_exceptions.md R202) and halting (41_session.md R149, R150). -/

namespace Sys2Proof.Machine

/-- R141, R202: `warn AckMismatch(text, x)` appends to both lists and ends nothing. -/
def warn (text : ByteString) (observed : Option Byte) (s : State) : State :=
  { s with opWarn := s.opWarn ++ [⟨text, observed⟩], warnLog := s.warnLog ++ [⟨text, observed⟩] }

/-- R34, R149, R150: the run ends; no response is left. -/
def halt (s : State) : State := { s with opWarn := [], ph := .idle, halted := true }

end Sys2Proof.Machine
end

