-- ==== Sys2Proof/Machine/Operands.lean ====
section
/-! DEFINITION. The operands of a label's primitive: which command is in flight, and what the laws of 20_memory.md R55 to R57
let a read answer. -/

namespace Sys2Proof.Machine

/-- R145: the text of the sendCommand in flight. The S and O labels belong to OPEN (R142), the Sd labels to SEND (R147). At SdAck
the text is still `line_buf`, which nothing writes in between (DEDUCED, log entry 12). -/
def commandText (s : State) : Option ByteString :=
  match s.ph with
  | .opWriteS => s.cfg.map (fun c => sLine c.bitrateCode)
  | .opAckS => s.cfg.map (fun c => sLine c.bitrateCode)
  | .opWriteO => some oLine
  | .opAckO => some oLine
  | .sdWrite => some s.lineBuf
  | .sdAck => some s.lineBuf
  | .idle => none
  | .opAcquire => none
  | .rcRead => none
  | .clWrite => none
  | .clRelease => none

/-- R145: the ACK label that follows a write label; the close sequence's write is followed by the release (R149). -/
def Phase.afterWrite : Phase → Phase
  | .opWriteS => .opAckS
  | .opWriteO => .opAckO
  | .sdWrite => .sdAck
  | .clWrite => .clRelease
  | ph => ph

/-- R145: the labels at which sendCommand writes. -/
def Phase.writes : Phase → Bool
  | .opWriteS => true
  | .opWriteO => true
  | .sdWrite => true
  | _ => false

/-- R57: a read may answer Timeout only if a read timeout is configured. -/
def mayTimeOut (s : State) : Bool :=
  match s.cfg with
  | some c => c.readTimeout.isSome
  | none => false

/-- R56: the stream split after its first CR. -/
def splitAtCR : ByteString → Option (ByteString × ByteString)
  | [] => none
  | b :: rest =>
    if b = cr then some ([b], rest)
    else (splitAtCR rest).map (fun p => (b :: p.1, p.2))

/-- R53: what Acquire opens a handle for. -/
def handleFor (c : AdapterConfig) : TransportHandle :=
  { transportId := c.transportId, baud := c.baud, readTimeout := c.readTimeout }

end Sys2Proof.Machine
end

