-- ==== Sys2Proof/Machine/Ops.lean ====
section
/-! DEFINITION. The shared operations: completion and raising an error (41_session.md R141), the open failure path (R143), the
transport primitives (20_memory.md R53 to R57), the two labels of sendCommand (R145), and accepting a request (R140). The
block has no traps (60_exceptions.md R209), so raising an error is its one exceptional exit and there is no return. -/

namespace Sys2Proof.Machine

/-- R141: `respond ok(v)`. -/
def respondOk (v : Value) (s : State) : State :=
  { s with resp := some (.ok v s.opWarn), opWarn := [], ph := .idle }

/-- R141: `respond err(E, info)`. -/
def respondErr (e : Error) (s : State) : State :=
  { s with resp := some (.err e s.opWarn), opWarn := [], ph := .idle }

/-- R143: `OpenFail(E, info)` starts the close sequence, which will answer with the error. -/
def openFail (e : Error) (s : State) : State :=
  { s with closeCont := .replyErr e, ph := .clWrite }

/-- R160: a label whose primitive has no answer has no step; the environment moves, appending what it draws. -/
def waiting (s : State) : State := { s with rxq := s.rxq ++ s.draw.arrival }

/-- The environment appends bytes to the receive stream (R36, R160). -/
def arrive (bytes : ByteString) (s : State) : State := { s with rxq := s.rxq ++ bytes }

/-- R54: the answer of a write. -/
inductive WriteAnswer where
  | ok
  | ioError
  deriving DecidableEq, Repr

/-- R54: `TxWrite(bs)`. -/
def txWrite (bytes : ByteString) (s : State) : WriteAnswer × State :=
  match s.draw.write with
  | .ok => (.ok, { s with tx := s.tx ++ bytes })
  | .ioError sent => (.ioError, { s with tx := s.tx ++ bytes.take sent })

/-- R55: the answer of a one-byte read; `blocked` where it waits. -/
inductive ByteAnswer where
  | byte (b : Byte)
  | timeout
  | ioError
  | blocked
  deriving DecidableEq, Repr

/-- R55: `RxReadExact1()`. A byte that stands in the stream can only be delivered or fail. -/
def rxReadExact1 (s : State) : ByteAnswer × State :=
  match s.draw.read, s.rxq with
  | .ioError, _ => (.ioError, s)
  | _, b :: rest => (.byte b, { s with rxq := rest })
  | .timeout _, [] => if mayTimeOut s then (.timeout, s) else (.blocked, s)
  | .deliver, [] => (.blocked, s)
  | .endOfStream, [] => (.blocked, s)

/-- R56: the answer of a line read; `blocked` where it waits. -/
inductive LineAnswer where
  | bytes (bs : ByteString)
  | timeout
  | ioError
  | blocked
  deriving DecidableEq, Repr

/-- R56: `RxReadUntilCR()`. A line that stands in the stream can only be delivered or fail. -/
def rxReadUntilCR (s : State) : LineAnswer × State :=
  match s.draw.read, splitAtCR s.rxq with
  | .ioError, _ => (.ioError, s)
  | _, some (line, rest) => (.bytes line, { s with rxq := rest })
  | .timeout lost, none =>
    if mayTimeOut s then (.timeout, { s with rxq := s.rxq.drop lost }) else (.blocked, s)
  | .endOfStream, none => (.bytes s.rxq, { s with rxq := [] })
  | .deliver, none => (.blocked, s)

/-- R145: a failure of sendCommand goes to the operation that called it: SEND answers it (R147), OPEN takes its failure
path (R143). -/
def commandFail (e : Error) (s : State) : State :=
  match s.ph with
  | .sdWrite => respondErr e s
  | .sdAck => respondErr e s
  | _ => openFail e s

/-- R145: sendCommand succeeded at its ACK label: OPEN goes on to the O command or becomes Open (R142), SEND answers (R147). -/
def commandDone (s : State) : State :=
  match s.ph with
  | .opAckS => { s with ph := .opWriteO }
  | .opAckO => respondOk .unit { s with st := .opened }
  | _ => respondOk .unit s

/-- R145, label W: one write of the text and its CR (R61). -/
def writeLabel (text : ByteString) (s : State) : State :=
  match txWrite (text ++ [cr]) s with
  | (.ok, s') => { s' with ph := s'.ph.afterWrite }
  | (.ioError, s') => commandFail (.transport .writeFailed) s'

/-- R145, R146, label A: one byte is read, whatever it is. -/
def ackLabel (text : ByteString) (s : State) : State :=
  match rxReadExact1 s with
  | (.byte b, s') => commandDone (if isAck b then s' else warn text (some b) s')
  | (.timeout, s') =>
    match s'.params.ackTimeoutPolicy with
    | .warn => commandDone (warn text none s')
    | .error => commandFail (.timeout .ackTimeout) s'
  | (.ioError, s') => commandFail (.transport .readFailed) s'
  | (.blocked, s') => waiting s'

/-- R145: the label of sendCommand at which the session stands. -/
def commandLabel (text : ByteString) (s : State) : State :=
  if s.ph.writes then writeLabel text s else ackLabel text s

/-- R24, R53: a primitive other than Acquire is called only while the handle is held. -/
def withHandle (s next : State) : Host.Outcome State Fault Refusal :=
  if s.held then .next next else .fault .noHandle

/-- R140: the port accepts a request only while the session is idle and not halted; `next` is the acceptance step. -/
def accept (s next : State) : Host.Outcome State Fault Refusal :=
  if s.halted then .refused .halted
  else if s.ph = .idle then .next next
  else .refused .portBusy

end Sys2Proof.Machine
end

