-- ==== Sys2Proof/Machine/CodecRequests.lean ====
section
/-! DEFINITION. The codec's host requests (40_codec.md R103, R107): answered in the acceptance step, in any lifecycle state
(R106). -/

namespace Sys2Proof.Machine

/-- R103: ENCODE. -/
def execEncode (f : CanFrame) (s : State) : Host.Outcome State Fault Refusal :=
  accept s (match encodeFrame f with
    | .ok line => respondOk (.line line) s
    | .error r => respondErr (.encoding r) s)

/-- R107: DECODE. -/
def execDecode (line : ByteString) (s : State) : Host.Outcome State Fault Refusal :=
  accept s (match decodeLine s.params.hexAcceptLower line with
    | .ok f => respondOk (.frame f) s
    | .error e => respondErr e s)

end Sys2Proof.Machine
end

