-- ==== Sys2Proof/Machine/Command.lean ====
section
/-! DEFINITION. SENDCMD (41_session.md R145, R146), internal to OPEN and SEND. -/

namespace Sys2Proof.Machine

/-- R145: one label of sendCommand(text). It runs only as the command in flight; the caller cannot request it. -/
def execSendCmd (text : ByteString) (s : State) : Host.Outcome State Fault Refusal :=
  if s.halted then .refused .halted
  else if commandText s = some text then withHandle s (commandLabel text s)
  else .refused .notInFlight

end Sys2Proof.Machine
end

