-- ==== Sys2Proof/Machine/SessionRequests.lean ====
section
/-! DEFINITION. The session's host requests (41_session.md R142 to R149), the reserved codes (30_encoding.md R84) and the teardown
input (R150). A request is its acceptance step; the labels that follow are in Labels.lean, Command.lean and WireLines.lean. -/

namespace Sys2Proof.Machine

/-- R142, R144: OPEN. An ill-formed configuration is no request of the block (R26). -/
def execOpenReq (c : AdapterConfig) (s : State) : Host.Outcome State Fault Refusal :=
  if c.wf then
    accept s (if s.st = .closed then { s with openReq := some c, ph := .opAcquire }
      else respondErr (.state .notClosed) s)
  else .refused (.illFormedConfig c.bitrateCode)

/-- R147: SEND. The state check comes before Encode. -/
def execSend (f : CanFrame) (s : State) : Host.Outcome State Fault Refusal :=
  accept s (if s.st = .opened then
      match encodeFrame f with
      | .ok line => { s with lineBuf := line, ph := .sdWrite }
      | .error r => respondErr (.encoding r) s
    else respondErr (.state .notOpen) s)

/-- R148: RECEIVE. -/
def execReceive (s : State) : Host.Outcome State Fault Refusal :=
  accept s (if s.st = .opened then { s with ph := .rcRead } else respondErr (.state .notOpen) s)

/-- R149: CLOSE, idempotent in Closed. -/
def execClose (s : State) : Host.Outcome State Fault Refusal :=
  accept s (if s.st = .closed then respondOk .unit s
    else { s with closeCont := .reply .unit, ph := .clWrite })

/-- R84: code 0 is refused by name. -/
def execReserved000 (_ : State) : Host.Outcome State Fault Refusal := .refused (.reservedCode 0#3)

/-- R84: code 7 is refused by name. -/
def execReserved111 (_ : State) : Host.Outcome State Fault Refusal := .refused (.reservedCode 7#3)

/-- R150: what the teardown input does to a session that is not halted. -/
def tearDown (s : State) : State :=
  match s.ph with
  | .clWrite => { s with closeCont := .halt }
  | .clRelease => { s with closeCont := .halt }
  | _ =>
    if s.st = .closed then halt s
    else { s with opWarn := [], closeCont := .halt, ph := .clWrite }

/-- R150: TEARDOWN, between any two steps while not halted. -/
def execTeardown (s : State) : Host.Outcome State Fault Refusal :=
  if s.halted then .refused .halted else .next (tearDown s)

end Sys2Proof.Machine
end

