-- ==== Sys2Proof/Machine/WireLines.lean ====
section
/-! DEFINITION. The wire rows (30_encoding.md R73 to R78). An outgoing line is the session's write of exactly that line, at the
label that forms it (20_memory.md R51). An incoming line or the ACK is its arrival on the receive stream (R36, R160); what the
session does when it reads the bytes is sendCommand's and RECEIVE's. Log entry 8. -/

namespace Sys2Proof.Machine

/-- R51, R145: the write of `text` at `label`, which must be the command the session forms there. -/
def writeLine (label : Phase) (text : ByteString) (s : State) : Host.Outcome State Fault Refusal :=
  if s.halted then .refused .halted
  else if s.ph = label ∧ commandText s = some text then withHandle s (writeLabel text s)
  else .refused .lineNotFormed

/-- R73: WIRE_T, written by SEND at SdWrite. -/
def execWireTx (f : CanFrame) (s : State) : Host.Outcome State Fault Refusal :=
  match encodeFrame f with
  | .ok line => writeLine .sdWrite line s
  | .error _ => .refused .lineNotFormed

/-- R75: WIRE_S, written by OPEN at OpWriteS. -/
def execWireS (code : Nat) (s : State) : Host.Outcome State Fault Refusal :=
  writeLine .opWriteS (sLine code) s

/-- R76: WIRE_O, written by OPEN at OpWriteO. -/
def execWireO (s : State) : Host.Outcome State Fault Refusal := writeLine .opWriteO oLine s

/-- R149: the close sequence's write; an IoError is swallowed. -/
def closeLabel (s : State) : State :=
  { (txWrite (cLine ++ [cr]) s).2 with ph := .clRelease }

/-- R77, R149: WIRE_C, written by the close sequence at ClWrite. -/
def execWireC (s : State) : Host.Outcome State Fault Refusal :=
  if s.halted then .refused .halted
  else if s.ph = .clWrite then withHandle s (closeLabel s)
  else .refused .lineNotFormed

/-- R74: WIRE_t arrives, with its CR. -/
def execWireRx (line : ByteString) (s : State) : Host.Outcome State Fault Refusal :=
  .next (arrive (line ++ [cr]) s)

/-- R78: the ACK byte arrives, without a CR. -/
def execWireAck (s : State) : Host.Outcome State Fault Refusal := .next (arrive [ackByte] s)

end Sys2Proof.Machine
end

