-- ==== Sys2Proof/Machine/Dispatch.lean ====
section
/-! DEFINITION. One arm per instruction. -/

namespace Sys2Proof.Machine

def exec (i : Instr) (s : State) : Host.Outcome State Fault Refusal :=
  match i with
  | .encode f => Sys2Proof.Machine.execEncode f s
  | .decode l => Sys2Proof.Machine.execDecode l s
  | .openReq c => Sys2Proof.Machine.execOpenReq c s
  | .send f => Sys2Proof.Machine.execSend f s
  | .receive => Sys2Proof.Machine.execReceive s
  | .close => Sys2Proof.Machine.execClose s
  | .reserved000 => Sys2Proof.Machine.execReserved000 s
  | .reserved111 => Sys2Proof.Machine.execReserved111 s
  | .teardown => Sys2Proof.Machine.execTeardown s
  | .sendCmd t => Sys2Proof.Machine.execSendCmd t s
  | .wireTx f => Sys2Proof.Machine.execWireTx f s
  | .wireRx l => Sys2Proof.Machine.execWireRx l s
  | .wireS n => Sys2Proof.Machine.execWireS n s
  | .wireO => Sys2Proof.Machine.execWireO s
  | .wireC => Sys2Proof.Machine.execWireC s
  | .wireAck => Sys2Proof.Machine.execWireAck s

end Sys2Proof.Machine
end

