-- ==== Sys2Proof/Machine/Fetch.lean ====
section
/-! DEFINITION. Which move the next step makes (41_session.md R160) and which instruction that move is: the schedule picks the agent,
`ph` picks the session's label, and what stands on the port or on the wire is decoded. -/

namespace Sys2Proof.Machine

/-- R160: one move. -/
inductive Move where
  /-- an instruction of the table -/
  | run (i : Instr)
  /-- the OpAcquire label (R142) -/
  | acquire
  /-- the RcRead label (R148) -/
  | read
  /-- the ClRelease label (R149) -/
  | release
  /-- the environment appends bytes that are no incoming row of the table -/
  | append (bytes : ByteString)
  /-- the session has no step: the environment moves (R160) -/
  | wait
  /-- the run has ended (R251) -/
  | ended
  /-- the S command's label with no configuration: a state outside the invariant (R42) -/
  | noConfig
  deriving DecidableEq, Repr

/-- R145: at a label of sendCommand the instruction is the wire row of the line being written, where it is one, and sendCommand
itself otherwise. Both do the same. -/
def outgoing (text : ByteString) (s : State) : Instr :=
  match s.ph, decodeWire s.params.hexAcceptLower (text ++ [cr]) with
  | .opWriteS, .ok (.wireS n) => .wireS n
  | .opWriteO, .ok .wireO => .wireO
  | .sdWrite, .ok (.wireTx f) => .wireTx f
  | _, _ => .sendCmd text

/-- R74, R78: bytes that arrive are an incoming row of the table, or any bytes at all (R36). -/
def arriving (bytes : ByteString) (s : State) : Move :=
  match decodeWire s.params.hexAcceptLower bytes with
  | .ok (.wireRx line) => .run (.wireRx line)
  | .ok .wireAck => .run .wireAck
  | _ => .append bytes

/-- R160: the session's move: the pending request while idle, which leaves the caller's list, or the label at `ph`. -/
def sessionMove (s : State) : Move × State :=
  match s.ph with
  | .idle =>
    match s.requests with
    | w :: ws => (.run (decodeRequest w), { s with requests := ws })
    | [] => (.wait, s)
  | .opAcquire => (.acquire, s)
  | .rcRead => (.read, s)
  | .clWrite => (.run .wireC, s)
  | .clRelease => (.release, s)
  | _ =>
    match commandText s with
    | some text => (.run (outgoing text s), s)
    | none => (.noConfig, s)

/-- A session step whose draw no schedule gives: the draw is free. -/
def freeDrawn (s : State) : State :=
  { s with draw := Config.freeDraw s.draws, draws := s.draws + 1 }

/-- R160: the next move, and the state it starts from: the schedule's entry taken off, the draw latched. -/
def nextMove (s : State) : Move × State :=
  if s.halted then (.ended, s)
  else match s.inputs with
    | .append bytes :: rest => (arriving bytes s, { s with inputs := rest })
    | .teardown :: rest => (.run .teardown, { s with inputs := rest })
    | .session d :: rest => sessionMove { s with inputs := rest, draw := d }
    | [] => sessionMove (freeDrawn s)

/-- A handle and a configuration for a session that stands at a write label (used only to place a wire line). -/
def placedConfig (code : Nat) : AdapterConfig := { (default : AdapterConfig) with bitrateCode := code }

/-- The state with the session open or opening at `ph`, about to write. -/
def placeAt (ph : Phase) (st : Lifecycle) (code : Nat) (s : State) : State :=
  { s with ph := ph, st := st, held := true, cfg := some (placedConfig code),
           handle := some (handleFor (placedConfig code)), halted := false,
           inputs := .session s.draw :: s.inputs }

/-- The state whose next step runs the instruction of a word: a request is put first on the port and the session made idle;
an outgoing wire line is what the session is about to write; an incoming one is the schedule's next entry. A word that
decodes to nothing changes nothing. Log entry 13. -/
def place (word : InstrWord) (s : State) : State :=
  match word with
  | .port w => { s with requests := w :: s.requests, ph := .idle, halted := false, inputs := .session s.draw :: s.inputs }
  | .teardownPin => { s with halted := false, inputs := .teardown :: s.inputs }
  | .command _ => s
  | .wire bytes =>
    match decodeWire s.params.hexAcceptLower bytes with
    | .ok (.wireTx f) => { placeAt .sdWrite .opened 0 s with lineBuf := chT :: frameFields f }
    | .ok (.wireS n) => placeAt .opWriteS .opening n s
    | .ok .wireO => placeAt .opWriteO .opening 0 s
    | .ok .wireC => placeAt .clWrite .opened 0 s
    | .ok (.wireRx _) => { s with halted := false, inputs := .append bytes :: s.inputs }
    | .ok .wireAck => { s with halted := false, inputs := .append bytes :: s.inputs }
    | _ => s

end Sys2Proof.Machine
end

