-- ==== Sys2Proof/Machine/Labels.lean ====
section
/-! DEFINITION. The labels of OPEN, RECEIVE and the close sequence that are no row of the opcode table: OpAcquire
(41_session.md R142), RcRead (R148), ClRelease (R149). -/

namespace Sys2Proof.Machine

/-- R142, R53: the OpAcquire label with the operand `c`. On failure nothing is held; on success the configuration is
latched, and the receive stream is the new handle's (R243). -/
def acquireLabel (c : AdapterConfig) (s : State) : State :=
  match s.draw.acquire with
  | .fail => respondErr (.transport .acquireFailed) s
  | .ok found =>
    { s with held := true, cfg := some c, st := .opening, handle := some (handleFor c),
             rxq := found.getD s.rxq, ph := .opWriteS }

/-- R142: OpAcquire; its operand is the OPEN request's. -/
def acquireStep (s : State) : Host.Outcome State Fault Refusal :=
  match s.openReq with
  | some c => .next (acquireLabel c s)
  | none => .fault .noConfig

/-- R148: what a received run of bytes answers. Only the CR is stripped; the codec checks the marker (C3). The capture time
is the step's draw (R33). -/
def receiveBytes (bs : ByteString) (s : State) : State :=
  match stripCR bs with
  | none => respondErr (.framing .noTerminator) s
  | some line =>
    match decodeLine s.params.hexAcceptLower line with
    | .error e => respondErr e s
    | .ok f => respondOk (.frame { f with timestamp := some s.draw.now }) s

/-- R148: the RcRead label. -/
def readLabel (s : State) : State :=
  match rxReadUntilCR s with
  | (.bytes bs, s') => receiveBytes bs s'
  | (.timeout, s') => respondErr (.timeout .readTimeout) s'
  | (.ioError, s') => respondErr (.transport .readFailed) s'
  | (.blocked, s') => waiting s'

/-- R148: RcRead. -/
def readStep (s : State) : Host.Outcome State Fault Refusal := withHandle s (readLabel s)

/-- R149: the ClRelease label. Release always succeeds (R53). -/
def releaseLabel (s : State) : State :=
  let s' := { s with held := false, cfg := none, st := .closed, handle := none }
  match s.closeCont with
  | .reply v => respondOk v s'
  | .replyErr e => respondErr e s'
  | .halt => halt s'

/-- R149: ClRelease. -/
def releaseStep (s : State) : Host.Outcome State Fault Refusal := withHandle s (releaseLabel s)

end Sys2Proof.Machine
end

