-- ==== Sys2Proof/Machine/Step.lean ====
section
/-! DEFINITION. One step (41_session.md R160), and a state whose next step runs a given word of the opcode table. -/

namespace Sys2Proof.Machine

/-- What a move does from the state it starts in. -/
def perform (m : Move) (s : State) : Host.Outcome State Fault Refusal :=
  match m with
  | .run i => exec i s
  | .acquire => acquireStep s
  | .read => readStep s
  | .release => releaseStep s
  | .append bytes => .next (arrive bytes s)
  | .wait => .next (waiting s)
  | .ended => .refused .halted
  | .noConfig => .fault .noConfig

/-- R160: one step of whichever agent moves next. -/
def step (s : State) : Host.Outcome State Fault Refusal :=
  perform (nextMove s).1 (nextMove s).2

/-- `s` with the instruction of a table word placed where the next step fetches it. -/
def State.withFetchWord (s : State) (nbits w : Nat) : State := place (tableWord nbits w) s

end Sys2Proof.Machine
end

