-- ==== Sys2Proof/Safety.lean ====
section
/-! DEFINITION. What claims are stated in: the invariant of the session (10_state.md R42 and what follows from the rules it
rests on), runs of steps, what can be observed (R41), and the state with the debug flag taken out (60_exceptions.md R214). -/

namespace Sys2Proof.Machine

/-- R42: the labels at which the lifecycle is Opening. -/
def Phase.isOpening : Phase → Bool
  | .opWriteS => true
  | .opAckS => true
  | .opWriteO => true
  | .opAckO => true
  | _ => false

/-- R149: the labels of the close sequence. -/
def Phase.isClosing : Phase → Bool
  | .clWrite => true
  | .clRelease => true
  | _ => false

/-- The labels of SEND and RECEIVE (R147, R148). -/
def Phase.isTransfer : Phase → Bool
  | .sdWrite => true
  | .sdAck => true
  | .rcRead => true
  | _ => false

/-- The session's invariant. The first three clauses are R42; the others are what the same rules give. -/
structure Inv (s : State) : Prop where
  /-- R42: outside the close sequence the handle is held exactly when the session is Opening or Open -/
  held_iff : s.ph.isClosing = false → (s.held = true ↔ s.st ≠ .closed)
  /-- R42: a configuration is latched exactly while the handle is held (in the close sequence too, R27) -/
  cfg_iff : s.cfg.isSome = s.held
  /-- R42: the session is Opening only at OPEN's command labels -/
  opening_only : s.ph.isClosing = false → s.st = .opening → s.ph.isOpening = true
  /-- R142: at OPEN's command labels the session is Opening -/
  opening_labels : s.ph.isOpening = true → s.st = .opening
  /-- R147, R148: SEND and RECEIVE run in Open -/
  transfer_open : s.ph.isTransfer = true → s.st = .opened
  /-- R142: OpAcquire runs in Closed with the operand of a well-formed OPEN -/
  acquire_operand : s.ph = .opAcquire → s.st = .closed ∧ ∃ c, s.openReq = some c ∧ c.wf = true
  /-- R143, R149, R150: the close sequence runs with the handle held and the session not Closed -/
  closing_held : s.ph.isClosing = true → s.held = true ∧ s.st ≠ .closed
  /-- R36: the transport's handle mirrors the session's, opened for the latched configuration -/
  handle_mirrors : s.handle = s.cfg.map handleFor
  /-- R26: the latched configuration is well formed -/
  cfg_wf : ∀ c, s.cfg = some c → c.wf = true
  /-- R29, R141: no warning waits while no operation is in flight -/
  idle_warnings : s.ph = .idle → s.opWarn = []
  /-- R28: the line buffer holds at most 21 bytes -/
  line_short : s.lineBuf.length ≤ 21
  /-- R147: a SEND in flight has an encoded frame line in the buffer -/
  send_line : s.ph = .sdWrite ∨ s.ph = .sdAck → ∃ f, encodeFrame f = .ok s.lineBuf
  /-- R34: a halted session is Closed and idle -/
  halted_final : s.halted = true → s.ph = .idle ∧ s.st = .closed

/-- `k` steps, if each answers a next state. -/
def runFor : Nat → State → Option State
  | 0, s => some s
  | k + 1, s =>
    match step s with
    | .next t => runFor k t
    | .fault _ => none
    | .refused _ => none

/-- How many of the first `k` steps attempt to write the close line (R149). -/
def closeAttempts : Nat → State → Nat
  | 0, _ => 0
  | k + 1, s =>
    (if (nextMove s).1 = .run .wireC then 1 else 0) +
    (match step s with
     | .next t => closeAttempts k t
     | .fault _ => 0
     | .refused _ => 0)

/-- The handle is held in every state of the first `k` steps: the run stays within one open period (R161). -/
def heldThrough : Nat → State → Prop
  | 0, s => s.held = true
  | k + 1, s =>
    s.held = true ∧
    (match step s with
     | .next t => heldThrough k t
     | .fault _ => True
     | .refused _ => True)

/-- R41: what the caller and the adapter can observe. -/
structure Observation where
  resp    : Option Response
  warnLog : List Warning
  halted  : Bool
  tx      : ByteString
  deriving DecidableEq, Repr

/-- R41. -/
def observe (s : State) : Observation :=
  { resp := s.resp, warnLog := s.warnLog, halted := s.halted, tx := s.tx }

/-- A configuration with the debug flag off. -/
def quietConfig (c : AdapterConfig) : AdapterConfig := { c with debug := false }

/-- A port word with the debug flag of its configuration off. -/
def quietWord (w : PortWord) : PortWord := { w with cfg := quietConfig w.cfg }

/-- R214: the state with every debug flag off. -/
def quiet (s : State) : State :=
  { s with cfg := s.cfg.map quietConfig, openReq := s.openReq.map quietConfig,
           requests := s.requests.map quietWord }

/-- An outcome's next state, mapped. -/
def mapNext (f : State → State) : Host.Outcome State Fault Refusal → Host.Outcome State Fault Refusal
  | .next s => .next (f s)
  | .fault r => .fault r
  | .refused r => .refused r

end Sys2Proof.Machine
end

