-- ==== Sys2Proof/Certificates/Slice0/Obligations.lean ====
section
/-! DEFINITION. The statements about the model, each from the spec's rules. -/

open Sys2Proof Sys2Proof.Machine

/-! ### The codec (40_codec.md) -/

/-- R100: hexchar, and the digits of a byte and of an identifier read off their bit fields. -/
def Obligations.HexDigitsAreTheBitFieldsHighFirst : Prop :=
  (∀ d : Nat, d < 10 → hexChar d = BitVec.ofNat 8 (0x30 + d)) ∧
  (∀ d : Nat, 10 ≤ d → d ≤ 15 → hexChar d = BitVec.ofNat 8 (0x41 + (d - 10))) ∧
  (∀ b : Byte, hex2 b = [hexChar (b.extractLsb' 4 4).toNat, hexChar (b.extractLsb' 0 4).toNat]) ∧
  (∀ v : BitVec 12, hex3 v.toNat =
    [hexChar (v.extractLsb' 8 4).toNat, hexChar (v.extractLsb' 4 4).toNat, hexChar (v.extractLsb' 0 4).toNat])

/-- R101, R72 (the parameter is decision D7): which bytes are hex digits, and their values. -/
def Obligations.HexDigitsAcceptedAndTheirValues : Prop :=
  ∀ (lower : Bool) (c : Byte),
    (isHex lower c = true ↔
      (0x30 ≤ c.toNat ∧ c.toNat ≤ 0x39) ∨ (0x41 ≤ c.toNat ∧ c.toNat ≤ 0x46) ∨
      (0x61 ≤ c.toNat ∧ c.toNat ≤ 0x66 ∧ lower = true)) ∧
    (0x30 ≤ c.toNat → c.toNat ≤ 0x39 → hexVal c = c.toNat - 0x30) ∧
    (0x41 ≤ c.toNat → c.toNat ≤ 0x46 → hexVal c = c.toNat - 0x41 + 10) ∧
    (0x61 ≤ c.toNat → c.toNat ≤ 0x66 → hexVal c = c.toNat - 0x61 + 10)

/-- R103, with the order of the sub-reasons (R104, decision D11): what Encode answers, and that it does not read the
timestamp (R105). -/
def Obligations.EncodeAnswersLineOrFirstFailedCheck : Prop :=
  ∀ f : CanFrame,
    (0xFFF < f.id → encodeFrame f = .error .idRange) ∧
    (f.id ≤ 0xFFF → 8 < f.length → encodeFrame f = .error .lenRange) ∧
    (f.id ≤ 0xFFF → f.length ≤ 8 → f.payload.length ≠ f.length → encodeFrame f = .error .lenMismatch) ∧
    (f.id ≤ 0xFFF → f.length ≤ 8 → f.payload.length = f.length →
      encodeFrame f = .ok ([chT] ++ hex3 f.id ++ [hexChar f.length] ++ f.payload.flatMap hex2)) ∧
    (∀ ts, encodeFrame { f with timestamp := ts } = encodeFrame f)

/-- R112, which the spec derives from R103: the length and the bytes of an encoded line. -/
def Obligations.EncodedLineLengthAndAlphabet : Prop :=
  ∀ (f : CanFrame) (line : ByteString), encodeFrame f = .ok line →
    line.length = 5 + 2 * f.length ∧ 5 ≤ line.length ∧ line.length ≤ 21 ∧
    line.head? = some chT ∧ cr ∉ line ∧
    ∀ c ∈ line.tail, (0x30 ≤ c.toNat ∧ c.toNat ≤ 0x39) ∨ (0x41 ≤ c.toNat ∧ c.toNat ≤ 0x46)

/-- The indexed byte of a line (R12), 0 where there is none. -/
def Statements.at (line : ByteString) (i : Nat) : Byte := line.getD i 0#8

/-- The payload of R107's pseudocode, byte `k` of the data field. -/
def Statements.dataByte (line : ByteString) (k : Nat) : Byte :=
  BitVec.ofNat 8 (16 * hexVal (Statements.at line (5 + 2 * k)) + hexVal (Statements.at line (6 + 2 * k)))

/-- R107's pseudocode by index, in the order of R108. -/
def Statements.decodeByIndex (lower : Bool) (line : ByteString) : Except Error CanFrame :=
  let at' := Statements.at line
  let n := hexVal (at' 4)
  if line.length = 0 ∨ at' 0 ≠ cht then .error (.framing .badMarker)
  else if line.length < 5 then .error (.decoding .short)
  else if ¬(isHex lower (at' 1) = true ∧ isHex lower (at' 2) = true ∧ isHex lower (at' 3) = true) then
    .error (.decoding .badIdHex)
  else if isHex lower (at' 4) = false then .error (.decoding .badLenHex)
  else if 8 < n then .error (.decoding .lenRange)
  else if line.length < 5 + 2 * n then .error (.decoding .short)
  else if 5 + 2 * n < line.length then .error (.decoding .trailing)
  else if ∃ k < n, ¬(isHex lower (at' (5 + 2 * k)) = true ∧ isHex lower (at' (6 + 2 * k)) = true) then
    .error (.decoding .badDataHex)
  else .ok { id := 256 * hexVal (at' 1) + 16 * hexVal (at' 2) + hexVal (at' 3), length := n,
             payload := (List.range n).map (Statements.dataByte line), timestamp := none }

/-- R107 with the checks' order of R108 (decisions D9 and D10): Decode is the indexed pseudocode. -/
def Obligations.DecodeIsTheIndexedPseudocode : Prop :=
  ∀ (lower : Bool) (line : ByteString), decodeLine lower line = Statements.decodeByIndex lower line

/-- R109, which the spec derives from R107: what a decoded frame satisfies. -/
def Obligations.DecodedFrameIsBoundedAndUntimed : Prop :=
  ∀ (lower : Bool) (line : ByteString) (f : CanFrame), decodeLine lower line = .ok f →
    f.id ≤ 0xFFF ∧ f.length ≤ 8 ∧ f.payload.length = f.length ∧ f.timestamp = none

/-- R110 (its Trailing error is decision D9): a decoded line has exactly the declared length; a shorter one is Short and a longer
one Trailing, whatever its data bytes are. -/
def Obligations.DecodeNeverTruncatesOrPads : Prop :=
  ∀ (lower : Bool) (c1 c2 c3 c4 : Byte) (data : ByteString),
    isHex lower c1 = true → isHex lower c2 = true → isHex lower c3 = true → isHex lower c4 = true → hexVal c4 ≤ 8 →
    (data.length < 2 * hexVal c4 →
      decodeLine lower (cht :: c1 :: c2 :: c3 :: c4 :: data) = .error (.decoding .short)) ∧
    (2 * hexVal c4 < data.length →
      decodeLine lower (cht :: c1 :: c2 :: c3 :: c4 :: data) = .error (.decoding .trailing)) ∧
    (∀ f, decodeLine lower (cht :: c1 :: c2 :: c3 :: c4 :: data) = .ok f → data.length = 2 * f.length)

/-- R111, which the spec derives from R103 and R107 (conflict C5 restates the document's law): with the marker swapped, Decode gives back what Encode was given, for both
values of HEX_ACCEPT_LOWER. -/
def Obligations.DecodeOfEncodeReproducesTheFrame : Prop :=
  ∀ (lower : Bool) (f : CanFrame), f.id ≤ 0xFFF → f.length ≤ 8 → f.payload.length = f.length →
    ∃ line, encodeFrame f = .ok line ∧ decodeLine lower (cht :: line.tail) = .ok { f with timestamp := none }

/-- A byte with the letters a to f written uppercase. -/
def Statements.upper (c : Byte) : Byte :=
  if 0x61 ≤ c.toNat ∧ c.toNat ≤ 0x66 then BitVec.ofNat 8 (c.toNat - 0x20) else c

/-- R117, which the spec derives from R100, R103 and R107: Encode is injective on what it accepts, and Decode is injective up to letter case, exactly so when lowercase is
not accepted. -/
def Obligations.CodecIsInjectiveUpToLetterCase : Prop :=
  (∀ (f g : CanFrame) (line : ByteString), encodeFrame f = .ok line → encodeFrame g = .ok line →
    f.id = g.id ∧ f.length = g.length ∧ f.payload = g.payload) ∧
  (∀ (lower : Bool) (l m : ByteString) (f : CanFrame), decodeLine lower l = .ok f → decodeLine lower m = .ok f →
    l.map Statements.upper = m.map Statements.upper ∧ (lower = false → l = m))

/-- R75 to R77, R113 to R116: the command lines without CR and on the wire, and the ACK test. -/
def Obligations.CommandLinesAndAckAreTheirBytes : Prop :=
  (∀ code : Nat, code ≤ 9 →
    sLine code = [0x53#8, BitVec.ofNat 8 (0x30 + code)] ∧
    encode (.wireS code) = .wire [0x53#8, BitVec.ofNat 8 (0x30 + code), 0x0D#8]) ∧
  oLine = [0x4F#8] ∧ encode .wireO = .wire [0x4F#8, 0x0D#8] ∧
  cLine = [0x43#8] ∧ encode .wireC = .wire [0x43#8, 0x0D#8] ∧
  encode (.wireS 7) = .wire [0x53#8, 0x37#8, 0x0D#8] ∧
  (∀ b : Byte, isAck b = true ↔ b = 0x06#8)

/-! ### Encodings (30_encoding.md) -/

/-- R73 to R78, R84 (the request codes are decision D27): every well-formed instruction is what its word decodes to, with every operand. -/
def Obligations.DecodeOfEncodeIsTheInstruction : Prop :=
  ∀ (lower : Bool) (i : Instr), i.wf lower = true → decode lower (encode i) = .ok i

/-- R73 to R79: bytes on the wire that decode are the one encoding of their instruction, and the instruction is
well formed. -/
def Obligations.WireBytesAreTheEncodingOfWhatTheyDecodeTo : Prop :=
  ∀ (lower : Bool) (bytes : ByteString) (i : Instr), decodeWire lower bytes = .ok i →
    encode i = .wire bytes ∧ i.wf lower = true

/-- Words written out from the tables of R70 to R78 and R84 (the request codes are decision D27) decode to their instructions. That
a one-byte word below 8 is the host port's code, so that 6 reads as CLOSE, is the model's deduction, log entry 11. -/
def Obligations.WordsFromTheTablesDecode : Prop :=
  decode true (.wire [0x54#8, 0x31#8, 0x32#8, 0x33#8, 0x32#8, 0x41#8, 0x42#8, 0x43#8, 0x44#8, 0x0D#8])
    = .ok (.wireTx { id := 0x123, length := 2, payload := [0xAB#8, 0xCD#8], timestamp := none }) ∧
  decode true (.wire [0x53#8, 0x37#8, 0x0D#8]) = .ok (.wireS 7) ∧
  decode true (.wire [0x4F#8, 0x0D#8]) = .ok .wireO ∧
  decode true (.wire [0x43#8, 0x0D#8]) = .ok .wireC ∧
  decode true (.wire [0x06#8]) = .ok .wireAck ∧
  decode true (.wire [0x74#8, 0x30#8, 0x30#8, 0x30#8, 0x30#8, 0x0D#8])
    = .ok (.wireRx [0x74#8, 0x30#8, 0x30#8, 0x30#8, 0x30#8]) ∧
  decodeTableWord 8 0b101 = some .receive ∧ decodeTableWord 8 0b110 = some .close ∧
  decodeTableWord 8 0b000 = some .reserved000 ∧ decodeTableWord 8 0b111 = some .reserved111

/-! ### Host requests (40_codec.md R103, R107; 41_session.md R140 to R150) -/

/-- R106 (decision D36), R141: ENCODE and DECODE are answered in one step in any lifecycle state, and change no register but the response (the
warnings of the answered operation are handed over with it). -/
def Obligations.CodecRequestsAnswerAtOnce : Prop :=
  ∀ s : State, s.halted = false → s.ph = .idle →
    (∀ f line, encodeFrame f = .ok line →
      exec (.encode f) s = .next { s with resp := some (.ok (.line line) s.opWarn), opWarn := [] }) ∧
    (∀ f r, encodeFrame f = .error r →
      exec (.encode f) s = .next { s with resp := some (.err (.encoding r) s.opWarn), opWarn := [] }) ∧
    (∀ l f, decodeLine s.params.hexAcceptLower l = .ok f →
      exec (.decode l) s = .next { s with resp := some (.ok (.frame f) s.opWarn), opWarn := [] }) ∧
    (∀ l e, decodeLine s.params.hexAcceptLower l = .error e →
      exec (.decode l) s = .next { s with resp := some (.err e s.opWarn), opWarn := [] })

/-- R142, R26, R144 (decisions D15, D23): OPEN in Closed goes to OpAcquire with its operand; in Opening or Open it is
StateError(NotClosed) and nothing else changes; with a code outside 0..9 it is refused. -/
def Obligations.OpenIsAcceptedOnlyInClosed : Prop :=
  ∀ (c : AdapterConfig) (s : State),
    (9 < c.bitrateCode → exec (.openReq c) s = .refused (.illFormedConfig c.bitrateCode)) ∧
    (c.bitrateCode ≤ 9 → s.halted = false → s.ph = .idle → s.st = .closed →
      exec (.openReq c) s = .next { s with openReq := some c, ph := .opAcquire }) ∧
    (c.bitrateCode ≤ 9 → s.halted = false → s.ph = .idle → s.st ≠ .closed →
      exec (.openReq c) s = .next { s with resp := some (.err (.state .notClosed) s.opWarn), opWarn := [] })

/-- R147, R148: SEND in Open encodes the frame into the line buffer and goes to the write label, or answers the EncodingError
with no transport access; RECEIVE in Open goes to the read label. -/
def Obligations.TransfersInOpenGoToTheirLabels : Prop :=
  ∀ s : State, s.halted = false → s.ph = .idle → s.st = .opened →
    (∀ f line, encodeFrame f = .ok line → exec (.send f) s = .next { s with lineBuf := line, ph := .sdWrite }) ∧
    (∀ f r, encodeFrame f = .error r →
      exec (.send f) s = .next { s with resp := some (.err (.encoding r) s.opWarn), opWarn := [] }) ∧
    exec .receive s = .next { s with ph := .rcRead }

/-- R85, R200, R201 (the numbers are decision D26): the codes on the response port. A success has status 0 and no sub-reason
(R201 gives one to each error and to nothing else);
an error has its kind's code and its sub-reason's, as the two tables give them; the warning kind is 7; and no two errors share both
codes. -/
def Obligations.ResponseCodesAreTheTables : Prop :=
  (∀ v w, (Response.ok v w).statusCode = 0 ∧ (Response.ok v w).subReason = none) ∧
  (∀ e w, (Response.err e w).statusCode = e.kindCode ∧ (Response.err e w).subReason = some e.subCode) ∧
  (∀ r, (Error.encoding r).kindCode = 1) ∧ (∀ r, (Error.decoding r).kindCode = 2) ∧
  (∀ r, (Error.framing r).kindCode = 3) ∧ (∀ r, (Error.state r).kindCode = 4) ∧
  (∀ r, (Error.transport r).kindCode = 5) ∧ (∀ r, (Error.timeout r).kindCode = 6) ∧ ackMismatchCode = 7 ∧
  [EncReason.idRange, .lenRange, .lenMismatch].map (fun r => (Error.encoding r).subCode) = [1, 2, 3] ∧
  [DecReason.short, .badIdHex, .badLenHex, .lenRange, .trailing, .badDataHex].map (fun r => (Error.decoding r).subCode)
    = [1, 2, 3, 4, 5, 6] ∧
  [FrmReason.badMarker, .noTerminator].map (fun r => (Error.framing r).subCode) = [1, 2] ∧
  [StateReason.notClosed, .notOpen].map (fun r => (Error.state r).subCode) = [1, 2] ∧
  [TransportReason.acquireFailed, .writeFailed, .readFailed].map (fun r => (Error.transport r).subCode) = [1, 2, 3] ∧
  [TimeoutReason.readTimeout, .ackTimeout].map (fun r => (Error.timeout r).subCode) = [1, 2] ∧
  (∀ e e' : Error, e.kindCode = e'.kindCode → e.subCode = e'.subCode → e = e')

/-- R153, which the spec derives from R147 and R148 (decision D43): SEND and RECEIVE outside Open answer StateError(NotOpen), whatever the frame, and change nothing but the response. -/
def Obligations.TransfersOutsideOpenAreStateErrors : Prop :=
  ∀ s : State, s.halted = false → s.ph = .idle → s.st ≠ .opened →
    (∀ f, exec (.send f) s = .next { s with resp := some (.err (.state .notOpen) s.opWarn), opWarn := [] }) ∧
    exec .receive s = .next { s with resp := some (.err (.state .notOpen) s.opWarn), opWarn := [] }

/-- R149: CLOSE starts the close sequence, and is a no-op that answers ok in Closed. -/
def Obligations.CloseStartsTheCloseSequenceOrIsANoOp : Prop :=
  ∀ s : State, s.halted = false → s.ph = .idle →
    (s.st = .closed → exec .close s = .next { s with resp := some (.ok .unit s.opWarn), opWarn := [] }) ∧
    (s.st ≠ .closed → exec .close s = .next { s with closeCont := .reply .unit, ph := .clWrite })

/-- R84 (decision D27): the reserved codes are refused by name in every state. -/
def Obligations.ReservedCodesAreRefused : Prop :=
  ∀ s : State, exec .reserved000 s = .refused (.reservedCode 0#3) ∧ exec .reserved111 s = .refused (.reservedCode 7#3)

/-- The instructions of the host request port (R84). -/
def Statements.isRequest : Instr → Bool
  | .encode _ => true
  | .decode _ => true
  | .openReq _ => true
  | .send _ => true
  | .receive => true
  | .close => true
  | .reserved000 => true
  | .reserved111 => true
  | _ => false

/-- R140 (decision D2), R34 (decision D21): a request answers a next state only while the session is idle and not halted. -/
def Obligations.RequestsAreAcceptedOnlyWhileIdle : Prop :=
  ∀ (i : Instr) (s t : State), Statements.isRequest i = true → exec i s = .next t → s.ph = .idle ∧ s.halted = false

/-- R150 (decision D21): what TEARDOWN does at each label and lifecycle state, and that a halted block takes no more of it (as a
refusal, log entry 16). -/
def Obligations.TeardownClosesOrHalts : Prop :=
  ∀ s : State,
    (s.halted = true → exec .teardown s = .refused .halted) ∧
    (s.halted = false → (s.ph = .clWrite ∨ s.ph = .clRelease) →
      exec .teardown s = .next { s with closeCont := .halt }) ∧
    (s.halted = false → s.ph ≠ .clWrite → s.ph ≠ .clRelease → s.st = .closed →
      exec .teardown s = .next { s with opWarn := [], ph := .idle, halted := true }) ∧
    (s.halted = false → s.ph ≠ .clWrite → s.ph ≠ .clRelease → s.st ≠ .closed →
      exec .teardown s = .next { s with opWarn := [], closeCont := .halt, ph := .clWrite })

/-- Frame of ENCODE, DECODE and RECEIVE: nothing but the response, the handed-over warnings and the label changes; of OPEN,
its operand latch too; of SEND, the line buffer; of CLOSE, the continuation; of TEARDOWN, the continuation and `halted`,
and no response. -/
def Obligations.RequestsLeaveTheRestUnchanged : Prop :=
  ∀ s t : State,
    (∀ f, exec (.encode f) s = .next t → t = { s with resp := t.resp, opWarn := t.opWarn, ph := t.ph }) ∧
    (∀ l, exec (.decode l) s = .next t → t = { s with resp := t.resp, opWarn := t.opWarn, ph := t.ph }) ∧
    (exec .receive s = .next t → t = { s with resp := t.resp, opWarn := t.opWarn, ph := t.ph }) ∧
    (∀ c, exec (.openReq c) s = .next t →
      t = { s with resp := t.resp, opWarn := t.opWarn, ph := t.ph, openReq := t.openReq }) ∧
    (∀ f, exec (.send f) s = .next t →
      t = { s with resp := t.resp, opWarn := t.opWarn, ph := t.ph, lineBuf := t.lineBuf }) ∧
    (exec .close s = .next t →
      t = { s with resp := t.resp, opWarn := t.opWarn, ph := t.ph, closeCont := t.closeCont }) ∧
    (exec .teardown s = .next t →
      t = { s with opWarn := t.opWarn, ph := t.ph, closeCont := t.closeCont, halted := t.halted })

/-! ### sendCommand (41_session.md R145, R146) -/

/-- R145, R61 (one write, decision D41): at a write label the text and one CR go to tx and the ACK label follows. -/
def Obligations.CommandWriteAppendsTextAndCR : Prop :=
  ∀ (text : ByteString) (s : State), s.halted = false → s.held = true → s.draw.write = .ok →
    commandText s = some text →
    (s.ph = .opWriteS → exec (.sendCmd text) s = .next { s with tx := s.tx ++ text ++ [cr], ph := .opAckS }) ∧
    (s.ph = .opWriteO → exec (.sendCmd text) s = .next { s with tx := s.tx ++ text ++ [cr], ph := .opAckO }) ∧
    (s.ph = .sdWrite → exec (.sendCmd text) s = .next { s with tx := s.tx ++ text ++ [cr], ph := .sdAck })

/-- R145, R143, R157 (decisions D14, D16, D19): a failed write leaves the first `sent` bytes on tx; SEND answers
WriteFailed and stays Open, OPEN starts the close sequence that will answer it. -/
def Obligations.FailedWriteFailsTheCommand : Prop :=
  ∀ (text : ByteString) (sent : Nat) (s : State), s.halted = false → s.held = true →
    s.draw.write = .ioError sent → commandText s = some text →
    (s.ph = .sdWrite → exec (.sendCmd text) s =
      .next { s with tx := s.tx ++ (text ++ [cr]).take sent, opWarn := [], ph := .idle,
                     resp := some (.err (.transport .writeFailed) s.opWarn) }) ∧
    (s.ph = .opWriteS ∨ s.ph = .opWriteO → exec (.sendCmd text) s =
      .next { s with tx := s.tx ++ (text ++ [cr]).take sent,
                     closeCont := .replyErr (.transport .writeFailed), ph := .clWrite })

/-- The state in which sendCommand has succeeded at its ACK label (R142, R147), from the state after the read. -/
def Statements.succeeded (s : State) : State :=
  match s.ph with
  | .opAckS => { s with ph := .opWriteO }
  | .opAckO => { s with st := .opened, resp := some (.ok .unit s.opWarn), opWarn := [], ph := .idle }
  | _ => { s with resp := some (.ok .unit s.opWarn), opWarn := [], ph := .idle }

/-- The ACK labels (R145). -/
def Statements.atAck (s : State) : Prop := s.ph = .opAckS ∨ s.ph = .opAckO ∨ s.ph = .sdAck

/-- R145, R116, R202 (open after a mismatch is decision D13, the two lists decision D42; that a draw the laws do not allow delivers the
byte too is log entry 15): exactly one byte is read, whatever it is; 0x06 completes the command,
and any other byte completes it too, with one warning in both lists. -/
def Obligations.AckReadTakesOneByteAndCompletes : Prop :=
  ∀ (text : ByteString) (b : Byte) (rest : ByteString) (s : State), s.halted = false → s.held = true →
    s.draw.read ≠ .ioError → commandText s = some text → Statements.atAck s → s.rxq = b :: rest →
    (b = 0x06#8 → exec (.sendCmd text) s = .next (Statements.succeeded { s with rxq := rest })) ∧
    (b ≠ 0x06#8 → exec (.sendCmd text) s =
      .next (Statements.succeeded { s with
        rxq := rest, opWarn := s.opWarn ++ [⟨text, some b⟩], warnLog := s.warnLog ++ [⟨text, some b⟩] }))

/-- R146 (decision D12, a parameter): a timed-out ACK read is a warning under policy warn, and the command completes (OPEN goes on,
decision D13; SEND answers ok, R147); under policy error it is TimeoutError, which SEND answers staying Open (R147, R157, decision
D16) and OPEN takes to the close sequence (R143, decision D14). -/
def Obligations.AckTimeoutFollowsThePolicy : Prop :=
  ∀ (text : ByteString) (lost : Nat) (c : AdapterConfig) (s : State), s.halted = false → s.held = true →
    s.draw.read = .timeout lost → s.cfg = some c → c.readTimeout ≠ none →
    commandText s = some text → Statements.atAck s → s.rxq = [] →
    (s.params.ackTimeoutPolicy = .warn → exec (.sendCmd text) s =
      .next (Statements.succeeded { s with
        opWarn := s.opWarn ++ [⟨text, none⟩], warnLog := s.warnLog ++ [⟨text, none⟩] })) ∧
    (s.params.ackTimeoutPolicy = .error → s.ph = .sdAck → exec (.sendCmd text) s =
      .next { s with resp := some (.err (.timeout .ackTimeout) s.opWarn), opWarn := [], ph := .idle }) ∧
    (s.params.ackTimeoutPolicy = .error → s.ph ≠ .sdAck → exec (.sendCmd text) s =
      .next { s with closeCont := .replyErr (.timeout .ackTimeout), ph := .clWrite })

/-- R145, R55: an IoError of the ACK read consumes nothing and fails the command: SEND answers ReadFailed staying Open (R147, R157,
decision D16), OPEN starts the close sequence that will answer it (R143, decision D14). -/
def Obligations.FailedAckReadFailsTheCommand : Prop :=
  ∀ (text : ByteString) (s : State), s.halted = false → s.held = true → s.draw.read = .ioError →
    commandText s = some text → Statements.atAck s →
    (s.ph = .sdAck → exec (.sendCmd text) s =
      .next { s with resp := some (.err (.transport .readFailed) s.opWarn), opWarn := [], ph := .idle }) ∧
    (s.ph ≠ .sdAck → exec (.sendCmd text) s =
      .next { s with closeCont := .replyErr (.transport .readFailed), ph := .clWrite })

/-- R57 (decision D32), R248: with no read timeout an ACK read on an empty stream waits: only bytes that arrive change anything. That
the wait is an environment step is log entry 7, and that a draw the laws do not allow waits too is log entry 15. -/
def Obligations.AckReadWithoutTimeoutWaits : Prop :=
  ∀ (text : ByteString) (c : AdapterConfig) (s : State), s.halted = false → s.held = true →
    s.draw.read ≠ .ioError → s.cfg = some c → c.readTimeout = none →
    commandText s = some text → Statements.atAck s → s.rxq = [] →
    exec (.sendCmd text) s = .next { s with rxq := s.draw.arrival }

/-- R55, the one-byte read: a byte that stands in the stream is delivered or the read fails; on an empty stream the read waits,
fails, or times out where a timeout is configured; a timeout and a failure consume nothing. Each of these answers can happen. -/
def Obligations.ByteReadObeysItsLaw : Prop :=
  ∀ s : State,
    (∀ b rest, s.rxq = b :: rest →
      (rxReadExact1 s = (.byte b, { s with rxq := rest }) ∨ rxReadExact1 s = (.ioError, s)) ∧
      (∃ d, rxReadExact1 { s with draw := d } = (.byte b, { s with draw := d, rxq := rest })) ∧
      (∃ d, rxReadExact1 { s with draw := d } = (.ioError, { s with draw := d }))) ∧
    (s.rxq = [] →
      (rxReadExact1 s = (.blocked, s) ∨ rxReadExact1 s = (.ioError, s) ∨
        (rxReadExact1 s = (.timeout, s) ∧ ∃ c, s.cfg = some c ∧ c.readTimeout ≠ none)) ∧
      (∃ d, rxReadExact1 { s with draw := d } = (.blocked, { s with draw := d })) ∧
      (∃ d, rxReadExact1 { s with draw := d } = (.ioError, { s with draw := d })) ∧
      (∀ c, s.cfg = some c → c.readTimeout ≠ none →
        ∃ d, rxReadExact1 { s with draw := d } = (.timeout, { s with draw := d })))

/-- R56, R57 (decisions D17, D18), the line read: a line in the stream is delivered through its first CR or the read fails;
otherwise it waits, fails, gives the unterminated run, or times out where a timeout is configured, losing bytes from the front. Each
of these answers can happen. -/
def Obligations.LineReadObeysItsLaw : Prop :=
  ∀ s : State,
    (∀ line after, cr ∉ line → s.rxq = line ++ cr :: after →
      (rxReadUntilCR s = (.bytes (line ++ [cr]), { s with rxq := after }) ∨ rxReadUntilCR s = (.ioError, s)) ∧
      (∃ d, rxReadUntilCR { s with draw := d } = (.bytes (line ++ [cr]), { s with draw := d, rxq := after })) ∧
      (∃ d, rxReadUntilCR { s with draw := d } = (.ioError, { s with draw := d }))) ∧
    (cr ∉ s.rxq →
      (rxReadUntilCR s = (.blocked, s) ∨ rxReadUntilCR s = (.ioError, s) ∨
        rxReadUntilCR s = (.bytes s.rxq, { s with rxq := [] }) ∨
        (∃ lost, rxReadUntilCR s = (.timeout, { s with rxq := s.rxq.drop lost }) ∧
          ∃ c, s.cfg = some c ∧ c.readTimeout ≠ none)) ∧
      (∃ d, rxReadUntilCR { s with draw := d } = (.blocked, { s with draw := d })) ∧
      (∃ d, rxReadUntilCR { s with draw := d } = (.ioError, { s with draw := d })) ∧
      (∃ d, rxReadUntilCR { s with draw := d } = (.bytes s.rxq, { s with draw := d, rxq := [] })) ∧
      (∀ c lost, s.cfg = some c → c.readTimeout ≠ none →
        ∃ d, rxReadUntilCR { s with draw := d } = (.timeout, { s with draw := d, rxq := s.rxq.drop lost })))

/-- Frame of SENDCMD: held, cfg, handle and everything not named stay; st changes only where the O command completes; tx only
at a write label and only by an initial part of the text and its CR. -/
def Obligations.SendCommandLeavesTheRestUnchanged : Prop :=
  ∀ (text : ByteString) (s t : State), exec (.sendCmd text) s = .next t →
    t = { s with st := t.st, ph := t.ph, opWarn := t.opWarn, closeCont := t.closeCont, warnLog := t.warnLog,
                 resp := t.resp, tx := t.tx, rxq := t.rxq } ∧
    (s.ph ≠ .opAckO → t.st = s.st) ∧
    (s.ph.writes = true → t.rxq = s.rxq ∧ t.warnLog = s.warnLog ∧ ∃ k, t.tx = s.tx ++ (text ++ [cr]).take k) ∧
    (s.ph.writes = false → t.tx = s.tx)

/-- R145 (decision D27), R24: sendCommand runs only as the command in flight, with the handle held. Its refusal elsewhere is the
model's deduction, log entry 16. -/
def Obligations.SendCommandRunsOnlyInFlight : Prop :=
  ∀ (text : ByteString) (s : State),
    (∀ t, exec (.sendCmd text) s = .next t → commandText s = some text ∧ s.held = true ∧ s.halted = false) ∧
    (s.halted = false → commandText s ≠ some text → exec (.sendCmd text) s = .refused .notInFlight)

/-! ### Wire lines -/

/-- R73, R75 to R77 give the lines and R145, R149, R203 their writing: each outgoing line is written at the label that forms it; the
close sequence goes on to the release whatever its write answers (a failed write's sent part is decision D19). That executing an
outgoing row is the session's write of it is the model's choice, log entry 8. -/
def Obligations.OutgoingLinesReachTx : Prop :=
  ∀ s : State, s.halted = false → s.held = true →
    (∀ f line, s.draw.write = .ok → s.ph = .sdWrite → encodeFrame f = .ok line → s.lineBuf = line →
      exec (.wireTx f) s = .next { s with tx := s.tx ++ line ++ [0x0D#8], ph := .sdAck }) ∧
    (∀ c, s.draw.write = .ok → s.ph = .opWriteS → s.cfg = some c →
      exec (.wireS c.bitrateCode) s =
        .next { s with tx := s.tx ++ [0x53#8, BitVec.ofNat 8 (0x30 + c.bitrateCode), 0x0D#8], ph := .opAckS }) ∧
    (s.draw.write = .ok → s.ph = .opWriteO →
      exec .wireO s = .next { s with tx := s.tx ++ [0x4F#8, 0x0D#8], ph := .opAckO }) ∧
    (s.draw.write = .ok → s.ph = .clWrite →
      exec .wireC s = .next { s with tx := s.tx ++ [0x43#8, 0x0D#8], ph := .clRelease }) ∧
    (∀ sent, s.draw.write = .ioError sent → s.ph = .clWrite →
      exec .wireC s = .next { s with tx := s.tx ++ [0x43#8, 0x0D#8].take sent, ph := .clRelease })

/-- R36, R160: an incoming line, or the ACK, arrives at the end of the receive stream in every state. That executing an
incoming row is its arrival is the model's choice, log entry 8. -/
def Obligations.IncomingBytesArriveAtTheEnd : Prop :=
  ∀ s : State,
    (∀ line, exec (.wireRx line) s = .next { s with rxq := s.rxq ++ line ++ [0x0D#8] }) ∧
    exec .wireAck s = .next { s with rxq := s.rxq ++ [0x06#8] }

/-- R145: WIRE_T, WIRE_S and WIRE_O do what sendCommand does at its write label. Anywhere else the line is not formed (R51), and
neither is a bitrate line with another digit than the configuration's, nor the line of a frame that Encode rejects (R83). That
executing an outgoing row is the session's write is the model's choice, log entry 8; the refusals are its deduction, log entry 16. -/
def Obligations.OutgoingRowsAreSendCommandsWrites : Prop :=
  ∀ s : State, s.halted = false →
    (∀ f line, encodeFrame f = .ok line →
      (s.ph = .sdWrite → s.lineBuf = line → exec (.wireTx f) s = exec (.sendCmd line) s) ∧
      (¬(s.ph = .sdWrite ∧ s.lineBuf = line) → exec (.wireTx f) s = .refused .lineNotFormed)) ∧
    (∀ f r, encodeFrame f = .error r → exec (.wireTx f) s = .refused .lineNotFormed) ∧
    (∀ c, s.ph = .opWriteS → s.cfg = some c →
      exec (.wireS c.bitrateCode) s = exec (.sendCmd (sLine c.bitrateCode)) s) ∧
    (∀ c n, s.ph = .opWriteS → s.cfg = some c → c.bitrateCode ≤ 9 → n ≤ 9 → n ≠ c.bitrateCode →
      exec (.wireS n) s = .refused .lineNotFormed) ∧
    (∀ n, s.ph = .opWriteS → s.cfg = none → exec (.wireS n) s = .refused .lineNotFormed) ∧
    (∀ n, s.ph ≠ .opWriteS → exec (.wireS n) s = .refused .lineNotFormed) ∧
    (s.ph = .opWriteO → exec .wireO s = exec (.sendCmd oLine) s) ∧
    (s.ph ≠ .opWriteO → exec .wireO s = .refused .lineNotFormed) ∧
    (s.ph ≠ .clWrite → exec .wireC s = .refused .lineNotFormed)

/-- Frame of the wire rows, whose execution as the session's write or as an arrival is the model's choice, log entry 8: a failed write
may end the operation, so the outgoing ones are framed as sendCommand is; WIRE_C touches tx and the label alone; the incoming ones
touch rxq alone. -/
def Obligations.WireRowsLeaveTheRestUnchanged : Prop :=
  ∀ s t : State,
    (∀ i, (i = .wireO ∨ (∃ n, i = .wireS n) ∨ (∃ f, i = .wireTx f)) → exec i s = .next t →
      t = { s with ph := t.ph, opWarn := t.opWarn, closeCont := t.closeCont, resp := t.resp, tx := t.tx } ∧
      ∃ text, commandText s = some text ∧ ∃ k, t.tx = s.tx ++ (text ++ [cr]).take k) ∧
    (exec .wireC s = .next t → t = { s with tx := t.tx, ph := .clRelease } ∧
      ∃ k, t.tx = s.tx ++ (cLine ++ [cr]).take k) ∧
    (∀ i, (i = .wireAck ∨ ∃ l, i = .wireRx l) → exec i s = .next t → t = { s with rxq := t.rxq } ∧ s.rxq <+: t.rxq)

/-! ### Steps: what the next step runs, and the labels of OPEN, RECEIVE and the close sequence -/

/-- R140, R160: an idle session's step runs the request that stands first on the port, taken off the caller's list, with the
environment's draw latched: the schedule's draw, or a free one where the schedule is empty. -/
def Obligations.StepRunsThePendingRequest : Prop :=
  ∀ (s : State) (w : PortWord) (ws : List PortWord), s.halted = false → s.ph = .idle → s.requests = w :: ws →
    (∀ d rest, s.inputs = .session d :: rest →
      step s = exec (decodeRequest w) { s with requests := ws, inputs := rest, draw := d }) ∧
    (s.inputs = [] →
      step s = exec (decodeRequest w)
        { s with requests := ws, draw := Config.freeDraw s.draws, draws := s.draws + 1 })

/-- R160, with log entries 2 and 7: the next step is the session's, and `u` is where it starts: the schedule's draw latched and
taken off, or a free draw where the schedule is empty. -/
def Statements.SessionTurn (s u : State) : Prop :=
  (∃ d rest, s.inputs = .session d :: rest ∧ u = { s with inputs := rest, draw := d }) ∨
  (s.inputs = [] ∧ u = { s with draw := Config.freeDraw s.draws, draws := s.draws + 1 })

/-- R145, R149, R150, R160: at a write label the session's step runs the wire row of the line being written, at an ACK label
sendCommand, at ClWrite WIRE_C, with a scheduled draw and with a free one; a scheduled teardown runs TEARDOWN; bytes that arrive as a
t line or an ACK run their row. The draws, the schedule and the rows' execution are the model's choices, log entries 2, 7 and 8. -/
def Obligations.StepRunsTheWireRowAtItsLabel : Prop :=
  ∀ s : State, s.halted = false →
    (∀ u text, Statements.SessionTurn s u → commandText s = some text → s.ph.writes = false →
      step s = exec (.sendCmd text) u) ∧
    (∀ u c, Statements.SessionTurn s u → s.ph = .opWriteS → s.cfg = some c → c.bitrateCode ≤ 9 →
      step s = exec (.wireS c.bitrateCode) u) ∧
    (∀ u, Statements.SessionTurn s u → s.ph = .opWriteO → step s = exec .wireO u) ∧
    (∀ u f, Statements.SessionTurn s u → s.ph = .sdWrite → f.timestamp = none → encodeFrame f = .ok s.lineBuf →
      step s = exec (.wireTx f) u) ∧
    (∀ u, Statements.SessionTurn s u → s.ph = .clWrite → step s = exec .wireC u) ∧
    (∀ rest, s.inputs = .teardown :: rest → step s = exec .teardown { s with inputs := rest }) ∧
    (∀ rest bytes line, s.inputs = .append bytes :: rest →
      decodeWire s.params.hexAcceptLower bytes = .ok (.wireRx line) →
      step s = exec (.wireRx line) { s with inputs := rest }) ∧
    (∀ rest bytes, s.inputs = .append bytes :: rest →
      decodeWire s.params.hexAcceptLower bytes = .ok .wireAck → step s = exec .wireAck { s with inputs := rest })

/-- R142, R53 (decision D38): the acquisition fails and OPEN answers AcquireFailed with nothing held, or succeeds and latches the
configuration (decision D22). That the receive stream then stands or is any other is the model's deduction, log entry 14, from R243
(decision D34); the operand's latch and the scheduled draw are its choices, log entries 5 and 7. -/
def Obligations.AcquireLatchesTheConfiguration : Prop :=
  ∀ (s : State) (d : Draw) (rest : List Input) (c : AdapterConfig), s.halted = false →
    s.inputs = .session d :: rest → s.ph = .opAcquire → s.openReq = some c →
    (d.acquire = .fail → step s =
      .next { s with inputs := rest, draw := d, ph := .idle, opWarn := [],
                     resp := some (.err (.transport .acquireFailed) s.opWarn) }) ∧
    (∀ found, d.acquire = .ok found → step s =
      .next { s with inputs := rest, draw := d, held := true, cfg := some c, st := .opening, ph := .opWriteS,
                     handle := some ⟨c.transportId, c.baud, c.readTimeout⟩, rxq := found.getD s.rxq })

/-- What RECEIVE answers for a line read with its CR (R148). -/
def Statements.receiveAnswer (s : State) (now : Timestamp) (line : ByteString) : Response :=
  match decodeLine s.params.hexAcceptLower line with
  | .ok f => .ok (.frame { f with timestamp := some now }) s.opWarn
  | .error e => .err e s.opWarn

/-- R148, R56, R249 (decision D16): RECEIVE consumes the line through its first CR, whether it decodes or not, and answers the frame
with the capture time (decision D25) or the codec's error. That a draw the laws do not allow here delivers the line too is the
model's choice, log entry 15. -/
def Obligations.ReceiveConsumesOneLineAndAnswers : Prop :=
  ∀ (s : State) (d : Draw) (rest : List Input) (line after : ByteString), s.halted = false → s.held = true →
    s.inputs = .session d :: rest → s.ph = .rcRead → d.read ≠ .ioError → cr ∉ line →
    s.rxq = line ++ cr :: after →
    step s = .next { s with inputs := rest, draw := d, rxq := after, opWarn := [], ph := .idle,
                            resp := some (Statements.receiveAnswer s d.now line) }

/-- R148, R56 (decisions D16 to D18): the other answers of RECEIVE's read, with what each consumes; the session stays as it is. The
wait as an environment step is log entry 7; that a timeout drawn where none is configured waits is log entry 15. -/
def Obligations.ReceiveWithoutALine : Prop :=
  ∀ (s : State) (d : Draw) (rest : List Input), s.halted = false → s.held = true →
    s.inputs = .session d :: rest → s.ph = .rcRead →
    (d.read = .ioError → step s =
      .next { s with inputs := rest, draw := d, opWarn := [], ph := .idle,
                     resp := some (.err (.transport .readFailed) s.opWarn) }) ∧
    (∀ lost, d.read = .timeout lost → mayTimeOut s = true → cr ∉ s.rxq → step s =
      .next { s with inputs := rest, draw := d, rxq := s.rxq.drop lost, opWarn := [], ph := .idle,
                     resp := some (.err (.timeout .readTimeout) s.opWarn) }) ∧
    (d.read = .endOfStream → cr ∉ s.rxq → step s =
      .next { s with inputs := rest, draw := d, rxq := [], opWarn := [], ph := .idle,
                     resp := some (.err (.framing .noTerminator) s.opWarn) }) ∧
    (d.read = .deliver → cr ∉ s.rxq → step s =
      .next { s with inputs := rest, draw := d, rxq := s.rxq ++ d.arrival }) ∧
    (∀ lost, d.read = .timeout lost → mayTimeOut s = false → cr ∉ s.rxq → step s =
      .next { s with inputs := rest, draw := d, rxq := s.rxq ++ d.arrival })

/-- R149, R143, R209 (decisions D14, D20, D21): the release ends the open period and answers what the sequence was started for:
ok for CLOSE, the original error for a failed OPEN, nothing for a teardown, which halts. -/
def Obligations.ReleaseEndsThePeriodAndAnswers : Prop :=
  ∀ (s : State) (d : Draw) (rest : List Input), s.halted = false → s.held = true →
    s.inputs = .session d :: rest → s.ph = .clRelease →
    (∀ v, s.closeCont = .reply v → step s =
      .next { s with inputs := rest, draw := d, held := false, cfg := none, st := .closed, handle := none,
                     resp := some (.ok v s.opWarn), opWarn := [], ph := .idle }) ∧
    (∀ e, s.closeCont = .replyErr e → step s =
      .next { s with inputs := rest, draw := d, held := false, cfg := none, st := .closed, handle := none,
                     resp := some (.err e s.opWarn), opWarn := [], ph := .idle }) ∧
    (s.closeCont = .halt → step s =
      .next { s with inputs := rest, draw := d, held := false, cfg := none, st := .closed, handle := none,
                     opWarn := [], ph := .idle, halted := true })

/-- R160 (decision D1), R159, R251: with nothing to do the session has no step and only what arrives is added (an environment step, log
entry 7); after halt there is no step (R34, decision D21; a refusal, log entry 16). -/
def Obligations.IdleSessionWaitsAndHaltIsFinal : Prop :=
  ∀ s : State,
    (s.halted = true → step s = .refused .halted) ∧
    (∀ d rest, s.halted = false → s.ph = .idle → s.requests = [] → s.inputs = .session d :: rest →
      step s = .next { s with inputs := rest, draw := d, rxq := s.rxq ++ d.arrival }) ∧
    (∀ bytes rest, s.halted = false → s.inputs = .append bytes :: rest →
      step s = .next { s with inputs := rest, rxq := s.rxq ++ bytes })

/-! ### Whole operations -/

/-- W3, R142, R242: OPEN, with a transport that acquires, writes and delivers, and with the two acknowledges in the stream, writes the S
line and the O line and answers ok in Open, in six steps. The scheduled draws are the model's, log entry 7. -/
def Obligations.OpenHandshakeReachesOpen : Prop :=
  ∀ (s : State) (w : PortWord) (ws : List PortWord) (rest : List Input) (after : ByteString)
    (d0 d1 d2 d3 d4 d5 : Draw),
    s.halted = false → s.ph = .idle → s.st = .closed → s.opWarn = [] → w.op = 3#3 → w.cfg.bitrateCode ≤ 9 →
    s.requests = w :: ws →
    s.inputs = .session d0 :: .session d1 :: .session d2 :: .session d3 :: .session d4 :: .session d5 :: rest →
    d1.acquire = .ok none → d2.write = .ok → d3.read = .deliver → d4.write = .ok → d5.read = .deliver →
    s.rxq = 0x06#8 :: 0x06#8 :: after →
    runFor 6 s = some { s with
      requests := ws, inputs := rest, draw := d5, openReq := some w.cfg, held := true, cfg := some w.cfg,
      handle := some ⟨w.cfg.transportId, w.cfg.baud, w.cfg.readTimeout⟩, st := .opened, ph := .idle,
      rxq := after, resp := some (.ok .unit []),
      tx := s.tx ++ [0x53#8, BitVec.ofNat 8 (0x30 + w.cfg.bitrateCode), 0x0D#8, 0x4F#8, 0x0D#8] }

/-- R147: SEND in Open writes the encoded line and answers ok once the acknowledge is read, in three steps. The scheduled draws are the
model's, log entry 7. -/
def Obligations.SendRoundTripAnswersOk : Prop :=
  ∀ (s : State) (w : PortWord) (ws : List PortWord) (rest : List Input) (line after : ByteString)
    (d0 d1 d2 : Draw),
    s.halted = false → s.ph = .idle → s.st = .opened → s.held = true → s.opWarn = [] → w.op = 4#3 →
    s.requests = w :: ws → encodeFrame w.frame = .ok line →
    s.inputs = .session d0 :: .session d1 :: .session d2 :: rest → d1.write = .ok → d2.read = .deliver →
    s.rxq = 0x06#8 :: after →
    runFor 3 s = some { s with
      requests := ws, inputs := rest, draw := d2, lineBuf := line, ph := .idle, rxq := after,
      resp := some (.ok .unit []), tx := s.tx ++ line ++ [0x0D#8] }

/-- R148, R74, R111: a frame's t line that arrives on an empty stream while a RECEIVE waits in Open is what the RECEIVE answers, with
the capture time. -/
def Obligations.ArrivedFrameLineIsReceived : Prop :=
  ∀ (s : State) (f : CanFrame) (rest : List Input) (d : Draw),
    s.halted = false → s.ph = .rcRead → s.held = true → s.opWarn = [] → s.rxq = [] →
    f.id ≤ 0xFFF → f.length ≤ 8 → f.payload.length = f.length →
    s.inputs = .append (cht :: (frameFields f ++ [0x0D#8])) :: .session d :: rest → d.read = .deliver →
    runFor 2 s = some { s with
      inputs := rest, draw := d, ph := .idle,
      resp := some (.ok (.frame { f with timestamp := some d.now }) []) }

/-- R143 (decision D14; the part of the line that a failed write sent is decision D19): an S or an O command of OPEN that fails to be
written ends, three steps later, in Closed with nothing held, the close line written, and the original error answered with the
warnings collected. The scheduled draws are the model's, log entry 7. -/
def Obligations.FailedOpenEndsClosedWithItsError : Prop :=
  ∀ (s : State) (rest : List Input) (d0 d1 d2 : Draw) (sent : Nat) (text : ByteString),
    s.halted = false → s.held = true →
    (s.ph = .opWriteS ∧ (∃ c, s.cfg = some c ∧ text = [0x53#8, BitVec.ofNat 8 (0x30 + c.bitrateCode)])) ∨
      (s.ph = .opWriteO ∧ text = [0x4F#8]) →
    s.inputs = .session d0 :: .session d1 :: .session d2 :: rest → d0.write = .ioError sent → d1.write = .ok →
    runFor 3 s = some { s with
      inputs := rest, draw := d2, held := false, cfg := none, handle := none, st := .closed, ph := .idle,
      closeCont := .replyErr (.transport .writeFailed), opWarn := [],
      resp := some (.err (.transport .writeFailed) s.opWarn),
      tx := s.tx ++ (text ++ [0x0D#8]).take sent ++ [0x43#8, 0x0D#8] }

/-- R245: a frame line ahead of the ACK: its marker is taken as the ACK with a warning, SEND answers ok, and the next RECEIVE
answers BadMarker for the rest of the line, leaving the real ACK first in the stream. -/
def Obligations.FrameAheadOfAckIsLost : Prop :=
  ∀ (s : State) (d0 d1 d2 : Draw) (rest : List Input) (w : PortWord) (ws : List PortWord)
    (fields after : ByteString),
    s.halted = false → s.held = true → s.st = .opened → s.ph = .sdAck → s.opWarn = [] →
    s.inputs = .session d0 :: .session d1 :: .session d2 :: rest →
    d0.read = .deliver → d2.read = .deliver → w.op = 5#3 → s.requests = w :: ws →
    fields.head? ≠ some cht → cr ∉ fields → s.rxq = cht :: (fields ++ cr :: 0x06#8 :: after) →
    (∃ t, runFor 1 s = some t ∧ t.resp = some (.ok .unit [⟨s.lineBuf, some 0x74#8⟩])) ∧
    (∃ t, runFor 3 s = some t ∧ t.resp = some (.err (.framing .badMarker) []) ∧ t.rxq = 0x06#8 :: after ∧
      t.st = .opened ∧ t.warnLog = s.warnLog ++ [⟨s.lineBuf, some 0x74#8⟩])

/-! ### Reset and the whole machine -/

/-- R40, R240 (decision D33): the values the spec gives for reset (rxq's is unspecified; it is left out here). That the
parameters are in State and at reset hold R11's defaults is the model's choice, log entry 1. -/
def Obligations.ResetLeavesTheTabledValues : Prop :=
  State.reset.st = .closed ∧ State.reset.ph = .idle ∧ State.reset.held = false ∧ State.reset.cfg = none ∧
  State.reset.lineBuf = [] ∧ State.reset.opWarn = [] ∧ State.reset.closeCont = .reply .unit ∧
  State.reset.warnLog = [] ∧ State.reset.halted = false ∧ State.reset.resp = none ∧ State.reset.tx = [] ∧
  State.reset.handle = none ∧
  State.reset.params.hexAcceptLower = true ∧ State.reset.params.ackTimeoutPolicy = .warn

/-- The invariant holds at reset. -/
def Obligations.ResetMeetsTheInvariant : Prop := Inv State.reset

/-- R42, which the spec derives from R22, R24, R27 and the session's rules, and what the same rules give: every step keeps the invariant. -/
def Obligations.StepKeepsTheInvariant : Prop :=
  ∀ s t : State, Inv s → step s = .next t → Inv t

/-- R24, R217 (decision D1: nothing in the block is a fault): under the invariant the model's own faults, its deduction in log entry
17, never stop a step. -/
def Obligations.InvariantExcludesFaults : Prop :=
  ∀ (s : State) (r : Fault), Inv s → step s ≠ .fault r

/-- R36, R31, R34, R11: tx and the warning log only grow, `halted` is never cleared, and the parameters never change. -/
def Obligations.LogsOnlyGrow : Prop :=
  ∀ s t : State, step s = .next t →
    s.tx <+: t.tx ∧ s.warnLog <+: t.warnLog ∧ (s.halted = true → t.halted = true) ∧ t.params = s.params

/-- R51, R52: tx changes only in a write label's step, and the receive stream loses bytes only in an ACK read or a line read,
or where OPEN's acquisition finds another stream (R243, decision D34; log entry 14). -/
def Obligations.OnlyTheirLabelsReachTheStreams : Prop :=
  ∀ s t : State, step s = .next t →
    (t.tx ≠ s.tx → s.ph = .opWriteS ∨ s.ph = .opWriteO ∨ s.ph = .sdWrite ∨ s.ph = .clWrite) ∧
    (¬ s.rxq <+: t.rxq → s.ph = .opAckS ∨ s.ph = .opAckO ∨ s.ph = .sdAck ∨ s.ph = .rcRead ∨ s.ph = .opAcquire)

/-- R83 (decision D9), R145, R149: what a step adds to tx is an initial part of a T, S, O or C line with its CR, the T line being an
Encode output and the S line's digit 0..9. -/
def Obligations.OnlyTheFourLinesAreWritten : Prop :=
  ∀ s t : State, Inv s → step s = .next t →
    ∃ line k, t.tx = s.tx ++ (line ++ [cr]).take k ∧
      ((∃ f, encodeFrame f = .ok line) ∨ (∃ n, n ≤ 9 ∧ line = sLine n) ∨ line = oLine ∨ line = cLine)

/-- R22, R24, R27: only the acquisition takes the handle and latches the configuration, only the release gives them up, and the
lifecycle changes only there and where the O command completes. The operand latched is the model's field openReq, log entry 5. -/
def Obligations.OnlyAcquireAndReleaseChangeOwnership : Prop :=
  ∀ s t : State, step s = .next t →
    ((t.held ≠ s.held ∨ t.cfg ≠ s.cfg ∨ t.handle ≠ s.handle) →
      (s.ph = .opAcquire ∧ t.held = true ∧ t.cfg = s.openReq ∧ t.st = .opening) ∨
      (s.ph = .clRelease ∧ t.held = false ∧ t.cfg = none ∧ t.st = .closed)) ∧
    (t.st ≠ s.st →
      (s.ph = .opAcquire ∧ t.st = .opening) ∨ (s.ph = .opAckO ∧ t.st = .opened) ∨
      (s.ph = .clRelease ∧ t.st = .closed))

/-- R152, which the spec derives from R141 and R145: an ACK mismatch never changes st, held or cfg on SEND's path, and on OPEN's path st changes only as a matching ACK's would:
the mismatch leaves the same session state as the acknowledge. -/
def Obligations.AckMismatchChangesNoSessionState : Prop :=
  ∀ (text : ByteString) (b : Byte) (rest : ByteString) (s t u : State),
    s.draw.read ≠ .ioError → Statements.atAck s → s.rxq = b :: rest →
    exec (.sendCmd text) s = .next t → exec (.sendCmd text) { s with rxq := 0x06#8 :: rest } = .next u →
    t.held = s.held ∧ t.cfg = s.cfg ∧ t.st = u.st ∧ t.ph = u.ph ∧ t.tx = s.tx ∧ t.rxq = rest ∧
    (s.ph ≠ .opAckO → t.st = s.st)

/-- R161, which the spec derives from R143, R149 and R150: within one open period the close line is attempted at most once, and exactly once by the time the period ends. -/
def Obligations.CloseLineOncePerOpenPeriod : Prop :=
  ∀ (k : Nat) (s : State), heldThrough k s →
    closeAttempts k s ≤ 1 ∧
    (∀ t u, s.ph ≠ .clRelease → runFor k s = some t → step t = .next u → u.held = false →
      closeAttempts k s = 1)

/-- R214 (decision D24): the debug flag changes nothing that can be observed, in any run. -/
def Obligations.DebugFlagIsUnobservable : Prop :=
  ∀ (k : Nat) (s s' : State), quiet s = quiet s' →
    (runFor k s).map observe = (runFor k s').map observe
end

