-- ==== Sys2Proof/Laws/Codec.lean ====
section
/-! SUPPORT. What the codec's and the decoder's parts do (40_codec.md R100 to R103, 30_encoding.md R79). -/

namespace Sys2Proof.Machine

/-- R100, R101: a written digit is accepted, has its value, and is 0 to 9 or A to F. -/
theorem hexChar_facts (lower : Bool) (d : Nat) (h : d < 16) :
    isHex lower (hexChar d) = true ∧ hexVal (hexChar d) = d ∧ ((0x30 ≤ (hexChar d).toNat ∧
      (hexChar d).toNat ≤ 0x39) ∨ (0x41 ≤ (hexChar d).toNat ∧ (hexChar d).toNat ≤ 0x46)) := by
  interval_cases d <;> cases lower <;> decide

/-- R101: an accepted uppercase digit is the character of its value. -/
theorem hexChar_hexVal (c : Byte) (h : isHex false c = true) : hexChar (hexVal c) = c ∧ hexVal c < 16 := by
  revert c; decide

/-- R107: the two digits of every byte are read back. -/
theorem decodeData_flatMap (lower : Bool) (p : ByteString) : decodeData lower (p.flatMap hex2) = some p := by
  induction p with
  | nil => rfl
  | cons b p ih =>
    have hb := b.isLt
    have h1 := hexChar_facts lower (b.toNat / 16) (by omega)
    have h2 := hexChar_facts lower (b.toNat % 16) (by omega)
    simp only [List.flatMap_cons, hex2, List.cons_append, List.nil_append, decodeData, h1.1, h2.1, h1.2.1, h2.2.1, ih]
    simp
    apply BitVec.eq_of_toNat_eq
    simp; omega

/-- R100: two digits a byte. -/
theorem length_flatMap_hex2 (p : ByteString) : (p.flatMap hex2).length = 2 * p.length := by
  induction p with
  | nil => rfl
  | cons b p ih => simp [hex2] at *; omega

/-- R103: when Encode accepts, and the line it gives. -/
theorem encodeFrame_ok (f line) :
    encodeFrame f = .ok line ↔ f.id ≤ 0xFFF ∧ f.length ≤ 8 ∧ f.payload.length = f.length ∧
      line = chT :: frameFields f := by
  simp only [encodeFrame, Config.idEncMax, Config.lenMax]
  split_ifs <;> simp <;> try omega
  constructor
  · rintro rfl; refine ⟨by omega, by omega, by omega, rfl⟩
  · rintro ⟨_, _, _, rfl⟩; rfl

/-- R79: the CR of a line is taken off. -/
theorem stripCR_append (l : ByteString) : stripCR (l ++ [cr]) = some l := by simp [stripCR]

/-- R79: a line is its fields and a CR. -/
theorem stripCR_some (b l : ByteString) : stripCR b = some l ↔ b = l ++ [cr] := by
  constructor
  · intro h
    simp only [stripCR] at h
    split_ifs at h with hh
    simp at h; subst h
    obtain ⟨ys, rfl⟩ := List.getLast?_eq_some_iff.1 hh
    simp
  · rintro rfl; exact stripCR_append l

/-- R79: a line that is not the acknowledge is read by its marker. -/
theorem decodeWire_cons (lower) (m : Byte) (l : ByteString) (h : m ≠ ackByte) :
    decodeWire lower (m :: (l ++ [cr])) = decodeWireLine lower m l := by
  simp [decodeWire, h, stripCR_append]

end Sys2Proof.Machine
end

