-- ==== Sys2Proof/Laws/State.lean ====
section
/-! SUPPORT. One lemma per field per update of State, for the shared updates: each says what the update leaves in the field. -/

namespace Sys2Proof.Machine

@[simp] theorem warn_st (t : ByteString) (o : Option Byte) (s : State) : (warn t o s).st = s.st := rfl
@[simp] theorem warn_ph (t : ByteString) (o : Option Byte) (s : State) : (warn t o s).ph = s.ph := rfl
@[simp] theorem warn_held (t : ByteString) (o : Option Byte) (s : State) : (warn t o s).held = s.held := rfl
@[simp] theorem warn_cfg (t : ByteString) (o : Option Byte) (s : State) : (warn t o s).cfg = s.cfg := rfl
@[simp] theorem warn_lineBuf (t : ByteString) (o : Option Byte) (s : State) : (warn t o s).lineBuf = s.lineBuf := rfl
@[simp] theorem warn_opWarn (t : ByteString) (o : Option Byte) (s : State) : (warn t o s).opWarn = s.opWarn ++ [⟨t, o⟩] := rfl
@[simp] theorem warn_closeCont (t : ByteString) (o : Option Byte) (s : State) : (warn t o s).closeCont = s.closeCont := rfl
@[simp] theorem warn_warnLog (t : ByteString) (o : Option Byte) (s : State) : (warn t o s).warnLog = s.warnLog ++ [⟨t, o⟩] := rfl
@[simp] theorem warn_halted (t : ByteString) (o : Option Byte) (s : State) : (warn t o s).halted = s.halted := rfl
@[simp] theorem warn_resp (t : ByteString) (o : Option Byte) (s : State) : (warn t o s).resp = s.resp := rfl
@[simp] theorem warn_tx (t : ByteString) (o : Option Byte) (s : State) : (warn t o s).tx = s.tx := rfl
@[simp] theorem warn_rxq (t : ByteString) (o : Option Byte) (s : State) : (warn t o s).rxq = s.rxq := rfl
@[simp] theorem warn_handle (t : ByteString) (o : Option Byte) (s : State) : (warn t o s).handle = s.handle := rfl
@[simp] theorem warn_openReq (t : ByteString) (o : Option Byte) (s : State) : (warn t o s).openReq = s.openReq := rfl
@[simp] theorem warn_params (t : ByteString) (o : Option Byte) (s : State) : (warn t o s).params = s.params := rfl
@[simp] theorem warn_requests (t : ByteString) (o : Option Byte) (s : State) : (warn t o s).requests = s.requests := rfl
@[simp] theorem warn_inputs (t : ByteString) (o : Option Byte) (s : State) : (warn t o s).inputs = s.inputs := rfl
@[simp] theorem warn_draw (t : ByteString) (o : Option Byte) (s : State) : (warn t o s).draw = s.draw := rfl
@[simp] theorem warn_draws (t : ByteString) (o : Option Byte) (s : State) : (warn t o s).draws = s.draws := rfl

@[simp] theorem halt_st (s : State) : (halt s).st = s.st := rfl
@[simp] theorem halt_ph (s : State) : (halt s).ph = .idle := rfl
@[simp] theorem halt_held (s : State) : (halt s).held = s.held := rfl
@[simp] theorem halt_cfg (s : State) : (halt s).cfg = s.cfg := rfl
@[simp] theorem halt_lineBuf (s : State) : (halt s).lineBuf = s.lineBuf := rfl
@[simp] theorem halt_opWarn (s : State) : (halt s).opWarn = [] := rfl
@[simp] theorem halt_closeCont (s : State) : (halt s).closeCont = s.closeCont := rfl
@[simp] theorem halt_warnLog (s : State) : (halt s).warnLog = s.warnLog := rfl
@[simp] theorem halt_halted (s : State) : (halt s).halted = true := rfl
@[simp] theorem halt_resp (s : State) : (halt s).resp = s.resp := rfl
@[simp] theorem halt_tx (s : State) : (halt s).tx = s.tx := rfl
@[simp] theorem halt_rxq (s : State) : (halt s).rxq = s.rxq := rfl
@[simp] theorem halt_handle (s : State) : (halt s).handle = s.handle := rfl
@[simp] theorem halt_openReq (s : State) : (halt s).openReq = s.openReq := rfl
@[simp] theorem halt_params (s : State) : (halt s).params = s.params := rfl
@[simp] theorem halt_requests (s : State) : (halt s).requests = s.requests := rfl
@[simp] theorem halt_inputs (s : State) : (halt s).inputs = s.inputs := rfl
@[simp] theorem halt_draw (s : State) : (halt s).draw = s.draw := rfl
@[simp] theorem halt_draws (s : State) : (halt s).draws = s.draws := rfl

@[simp] theorem respondOk_st (v : Value) (s : State) : (respondOk v s).st = s.st := rfl
@[simp] theorem respondOk_ph (v : Value) (s : State) : (respondOk v s).ph = .idle := rfl
@[simp] theorem respondOk_held (v : Value) (s : State) : (respondOk v s).held = s.held := rfl
@[simp] theorem respondOk_cfg (v : Value) (s : State) : (respondOk v s).cfg = s.cfg := rfl
@[simp] theorem respondOk_lineBuf (v : Value) (s : State) : (respondOk v s).lineBuf = s.lineBuf := rfl
@[simp] theorem respondOk_opWarn (v : Value) (s : State) : (respondOk v s).opWarn = [] := rfl
@[simp] theorem respondOk_closeCont (v : Value) (s : State) : (respondOk v s).closeCont = s.closeCont := rfl
@[simp] theorem respondOk_warnLog (v : Value) (s : State) : (respondOk v s).warnLog = s.warnLog := rfl
@[simp] theorem respondOk_halted (v : Value) (s : State) : (respondOk v s).halted = s.halted := rfl
@[simp] theorem respondOk_resp (v : Value) (s : State) : (respondOk v s).resp = some (.ok v s.opWarn) := rfl
@[simp] theorem respondOk_tx (v : Value) (s : State) : (respondOk v s).tx = s.tx := rfl
@[simp] theorem respondOk_rxq (v : Value) (s : State) : (respondOk v s).rxq = s.rxq := rfl
@[simp] theorem respondOk_handle (v : Value) (s : State) : (respondOk v s).handle = s.handle := rfl
@[simp] theorem respondOk_openReq (v : Value) (s : State) : (respondOk v s).openReq = s.openReq := rfl
@[simp] theorem respondOk_params (v : Value) (s : State) : (respondOk v s).params = s.params := rfl
@[simp] theorem respondOk_requests (v : Value) (s : State) : (respondOk v s).requests = s.requests := rfl
@[simp] theorem respondOk_inputs (v : Value) (s : State) : (respondOk v s).inputs = s.inputs := rfl
@[simp] theorem respondOk_draw (v : Value) (s : State) : (respondOk v s).draw = s.draw := rfl
@[simp] theorem respondOk_draws (v : Value) (s : State) : (respondOk v s).draws = s.draws := rfl

@[simp] theorem respondErr_st (e : Error) (s : State) : (respondErr e s).st = s.st := rfl
@[simp] theorem respondErr_ph (e : Error) (s : State) : (respondErr e s).ph = .idle := rfl
@[simp] theorem respondErr_held (e : Error) (s : State) : (respondErr e s).held = s.held := rfl
@[simp] theorem respondErr_cfg (e : Error) (s : State) : (respondErr e s).cfg = s.cfg := rfl
@[simp] theorem respondErr_lineBuf (e : Error) (s : State) : (respondErr e s).lineBuf = s.lineBuf := rfl
@[simp] theorem respondErr_opWarn (e : Error) (s : State) : (respondErr e s).opWarn = [] := rfl
@[simp] theorem respondErr_closeCont (e : Error) (s : State) : (respondErr e s).closeCont = s.closeCont := rfl
@[simp] theorem respondErr_warnLog (e : Error) (s : State) : (respondErr e s).warnLog = s.warnLog := rfl
@[simp] theorem respondErr_halted (e : Error) (s : State) : (respondErr e s).halted = s.halted := rfl
@[simp] theorem respondErr_resp (e : Error) (s : State) : (respondErr e s).resp = some (.err e s.opWarn) := rfl
@[simp] theorem respondErr_tx (e : Error) (s : State) : (respondErr e s).tx = s.tx := rfl
@[simp] theorem respondErr_rxq (e : Error) (s : State) : (respondErr e s).rxq = s.rxq := rfl
@[simp] theorem respondErr_handle (e : Error) (s : State) : (respondErr e s).handle = s.handle := rfl
@[simp] theorem respondErr_openReq (e : Error) (s : State) : (respondErr e s).openReq = s.openReq := rfl
@[simp] theorem respondErr_params (e : Error) (s : State) : (respondErr e s).params = s.params := rfl
@[simp] theorem respondErr_requests (e : Error) (s : State) : (respondErr e s).requests = s.requests := rfl
@[simp] theorem respondErr_inputs (e : Error) (s : State) : (respondErr e s).inputs = s.inputs := rfl
@[simp] theorem respondErr_draw (e : Error) (s : State) : (respondErr e s).draw = s.draw := rfl
@[simp] theorem respondErr_draws (e : Error) (s : State) : (respondErr e s).draws = s.draws := rfl

@[simp] theorem openFail_st (e : Error) (s : State) : (openFail e s).st = s.st := rfl
@[simp] theorem openFail_ph (e : Error) (s : State) : (openFail e s).ph = .clWrite := rfl
@[simp] theorem openFail_held (e : Error) (s : State) : (openFail e s).held = s.held := rfl
@[simp] theorem openFail_cfg (e : Error) (s : State) : (openFail e s).cfg = s.cfg := rfl
@[simp] theorem openFail_lineBuf (e : Error) (s : State) : (openFail e s).lineBuf = s.lineBuf := rfl
@[simp] theorem openFail_opWarn (e : Error) (s : State) : (openFail e s).opWarn = s.opWarn := rfl
@[simp] theorem openFail_closeCont (e : Error) (s : State) : (openFail e s).closeCont = .replyErr e := rfl
@[simp] theorem openFail_warnLog (e : Error) (s : State) : (openFail e s).warnLog = s.warnLog := rfl
@[simp] theorem openFail_halted (e : Error) (s : State) : (openFail e s).halted = s.halted := rfl
@[simp] theorem openFail_resp (e : Error) (s : State) : (openFail e s).resp = s.resp := rfl
@[simp] theorem openFail_tx (e : Error) (s : State) : (openFail e s).tx = s.tx := rfl
@[simp] theorem openFail_rxq (e : Error) (s : State) : (openFail e s).rxq = s.rxq := rfl
@[simp] theorem openFail_handle (e : Error) (s : State) : (openFail e s).handle = s.handle := rfl
@[simp] theorem openFail_openReq (e : Error) (s : State) : (openFail e s).openReq = s.openReq := rfl
@[simp] theorem openFail_params (e : Error) (s : State) : (openFail e s).params = s.params := rfl
@[simp] theorem openFail_requests (e : Error) (s : State) : (openFail e s).requests = s.requests := rfl
@[simp] theorem openFail_inputs (e : Error) (s : State) : (openFail e s).inputs = s.inputs := rfl
@[simp] theorem openFail_draw (e : Error) (s : State) : (openFail e s).draw = s.draw := rfl
@[simp] theorem openFail_draws (e : Error) (s : State) : (openFail e s).draws = s.draws := rfl

@[simp] theorem waiting_st (s : State) : (waiting s).st = s.st := rfl
@[simp] theorem waiting_ph (s : State) : (waiting s).ph = s.ph := rfl
@[simp] theorem waiting_held (s : State) : (waiting s).held = s.held := rfl
@[simp] theorem waiting_cfg (s : State) : (waiting s).cfg = s.cfg := rfl
@[simp] theorem waiting_lineBuf (s : State) : (waiting s).lineBuf = s.lineBuf := rfl
@[simp] theorem waiting_opWarn (s : State) : (waiting s).opWarn = s.opWarn := rfl
@[simp] theorem waiting_closeCont (s : State) : (waiting s).closeCont = s.closeCont := rfl
@[simp] theorem waiting_warnLog (s : State) : (waiting s).warnLog = s.warnLog := rfl
@[simp] theorem waiting_halted (s : State) : (waiting s).halted = s.halted := rfl
@[simp] theorem waiting_resp (s : State) : (waiting s).resp = s.resp := rfl
@[simp] theorem waiting_tx (s : State) : (waiting s).tx = s.tx := rfl
@[simp] theorem waiting_rxq (s : State) : (waiting s).rxq = s.rxq ++ s.draw.arrival := rfl
@[simp] theorem waiting_handle (s : State) : (waiting s).handle = s.handle := rfl
@[simp] theorem waiting_openReq (s : State) : (waiting s).openReq = s.openReq := rfl
@[simp] theorem waiting_params (s : State) : (waiting s).params = s.params := rfl
@[simp] theorem waiting_requests (s : State) : (waiting s).requests = s.requests := rfl
@[simp] theorem waiting_inputs (s : State) : (waiting s).inputs = s.inputs := rfl
@[simp] theorem waiting_draw (s : State) : (waiting s).draw = s.draw := rfl
@[simp] theorem waiting_draws (s : State) : (waiting s).draws = s.draws := rfl

@[simp] theorem arrive_st (b : ByteString) (s : State) : (arrive b s).st = s.st := rfl
@[simp] theorem arrive_ph (b : ByteString) (s : State) : (arrive b s).ph = s.ph := rfl
@[simp] theorem arrive_held (b : ByteString) (s : State) : (arrive b s).held = s.held := rfl
@[simp] theorem arrive_cfg (b : ByteString) (s : State) : (arrive b s).cfg = s.cfg := rfl
@[simp] theorem arrive_lineBuf (b : ByteString) (s : State) : (arrive b s).lineBuf = s.lineBuf := rfl
@[simp] theorem arrive_opWarn (b : ByteString) (s : State) : (arrive b s).opWarn = s.opWarn := rfl
@[simp] theorem arrive_closeCont (b : ByteString) (s : State) : (arrive b s).closeCont = s.closeCont := rfl
@[simp] theorem arrive_warnLog (b : ByteString) (s : State) : (arrive b s).warnLog = s.warnLog := rfl
@[simp] theorem arrive_halted (b : ByteString) (s : State) : (arrive b s).halted = s.halted := rfl
@[simp] theorem arrive_resp (b : ByteString) (s : State) : (arrive b s).resp = s.resp := rfl
@[simp] theorem arrive_tx (b : ByteString) (s : State) : (arrive b s).tx = s.tx := rfl
@[simp] theorem arrive_rxq (b : ByteString) (s : State) : (arrive b s).rxq = s.rxq ++ b := rfl
@[simp] theorem arrive_handle (b : ByteString) (s : State) : (arrive b s).handle = s.handle := rfl
@[simp] theorem arrive_openReq (b : ByteString) (s : State) : (arrive b s).openReq = s.openReq := rfl
@[simp] theorem arrive_params (b : ByteString) (s : State) : (arrive b s).params = s.params := rfl
@[simp] theorem arrive_requests (b : ByteString) (s : State) : (arrive b s).requests = s.requests := rfl
@[simp] theorem arrive_inputs (b : ByteString) (s : State) : (arrive b s).inputs = s.inputs := rfl
@[simp] theorem arrive_draw (b : ByteString) (s : State) : (arrive b s).draw = s.draw := rfl
@[simp] theorem arrive_draws (b : ByteString) (s : State) : (arrive b s).draws = s.draws := rfl

@[simp] theorem freeDrawn_st (s : State) : (freeDrawn s).st = s.st := rfl
@[simp] theorem freeDrawn_ph (s : State) : (freeDrawn s).ph = s.ph := rfl
@[simp] theorem freeDrawn_held (s : State) : (freeDrawn s).held = s.held := rfl
@[simp] theorem freeDrawn_cfg (s : State) : (freeDrawn s).cfg = s.cfg := rfl
@[simp] theorem freeDrawn_lineBuf (s : State) : (freeDrawn s).lineBuf = s.lineBuf := rfl
@[simp] theorem freeDrawn_opWarn (s : State) : (freeDrawn s).opWarn = s.opWarn := rfl
@[simp] theorem freeDrawn_closeCont (s : State) : (freeDrawn s).closeCont = s.closeCont := rfl
@[simp] theorem freeDrawn_warnLog (s : State) : (freeDrawn s).warnLog = s.warnLog := rfl
@[simp] theorem freeDrawn_halted (s : State) : (freeDrawn s).halted = s.halted := rfl
@[simp] theorem freeDrawn_resp (s : State) : (freeDrawn s).resp = s.resp := rfl
@[simp] theorem freeDrawn_tx (s : State) : (freeDrawn s).tx = s.tx := rfl
@[simp] theorem freeDrawn_rxq (s : State) : (freeDrawn s).rxq = s.rxq := rfl
@[simp] theorem freeDrawn_handle (s : State) : (freeDrawn s).handle = s.handle := rfl
@[simp] theorem freeDrawn_openReq (s : State) : (freeDrawn s).openReq = s.openReq := rfl
@[simp] theorem freeDrawn_params (s : State) : (freeDrawn s).params = s.params := rfl
@[simp] theorem freeDrawn_requests (s : State) : (freeDrawn s).requests = s.requests := rfl
@[simp] theorem freeDrawn_inputs (s : State) : (freeDrawn s).inputs = s.inputs := rfl
@[simp] theorem freeDrawn_draw (s : State) : (freeDrawn s).draw = Config.freeDraw s.draws := rfl
@[simp] theorem freeDrawn_draws (s : State) : (freeDrawn s).draws = s.draws + 1 := rfl

end Sys2Proof.Machine
end

