-- ==== Sys2Proof/Laws/Ops.lean ====
section
/-! SUPPORT. For each shared operation, one lemma that says everything it can do. -/

namespace Sys2Proof.Machine

/-- R56: there is no line where there is no CR. -/
theorem split_none (q : ByteString) : splitAtCR q = none ↔ cr ∉ q := by
  induction q with
  | nil => simp [splitAtCR]
  | cons b q ih => simp only [splitAtCR]; split_ifs with h <;> simp [h, ih, eq_comm]

/-- R56: a line ends in its only CR. -/
theorem split_some (q l r : ByteString) (h : splitAtCR q = some (l, r)) :
    q = l ++ r ∧ ∃ m, l = m ++ [cr] ∧ cr ∉ m := by
  induction q generalizing l r with
  | nil => simp [splitAtCR] at h
  | cons b q ih =>
    simp only [splitAtCR] at h; split_ifs at h with hb
    · simp at h; obtain ⟨rfl, rfl⟩ := h; exact ⟨rfl, [], by simp [hb]⟩
    · simp at h; obtain ⟨a, h0, rfl⟩ := h
      obtain ⟨h1, m, rfl, h3⟩ := ih _ _ h0
      exact ⟨by rw [h1]; rfl, b :: m, rfl, by simp [h3, Ne.symm hb]⟩

/-- R56: the line is what stands before the first CR, and that CR. -/
theorem split_line (l r : ByteString) (h : cr ∉ l) : splitAtCR (l ++ cr :: r) = some (l ++ [cr], r) := by
  induction l with
  | nil => simp [splitAtCR]
  | cons b l ih => simp at h; simp [splitAtCR, ih h.2, Ne.symm h.1]

/-- R55, R57: everything a one-byte read can do. -/
theorem readExact1_cases (s : State) :
    (s.draw.read = .ioError ∧ rxReadExact1 s = (.ioError, s)) ∨
    (∃ b rest, s.rxq = b :: rest ∧ rxReadExact1 s = (.byte b, { s with rxq := rest })) ∨
    (s.rxq = [] ∧ mayTimeOut s = true ∧ rxReadExact1 s = (.timeout, s)) ∨
    (s.rxq = [] ∧ rxReadExact1 s = (.blocked, s)) := by
  unfold rxReadExact1
  split
  · simp_all
  · simp_all
  · split_ifs <;> simp_all
  · simp_all
  · simp_all

/-- R56, R57: everything a line read can do. -/
theorem readUntilCR_cases (s : State) :
    (s.draw.read = .ioError ∧ rxReadUntilCR s = (.ioError, s)) ∨
    (∃ line rest, cr ∉ line ∧ s.rxq = line ++ cr :: rest ∧ rxReadUntilCR s = (.bytes (line ++ [cr]), { s with rxq := rest })) ∨
    (cr ∉ s.rxq ∧ mayTimeOut s = true ∧ ∃ lost, rxReadUntilCR s = (.timeout, { s with rxq := s.rxq.drop lost })) ∨
    (cr ∉ s.rxq ∧ rxReadUntilCR s = (.bytes s.rxq, { s with rxq := [] })) ∨
    (cr ∉ s.rxq ∧ rxReadUntilCR s = (.blocked, s)) := by
  unfold rxReadUntilCR
  split
  · simp_all
  · rename_i h _; obtain ⟨a, m, rfl, c⟩ := split_some _ _ _ h
    exact .inr (.inl ⟨m, _, c, by simp [a], rfl⟩)
  · rename_i l h1 h2
    split_ifs with h
    · exact .inr (.inr (.inl ⟨(split_none _).1 h2, h, l, rfl⟩))
    · exact .inr (.inr (.inr (.inr ⟨(split_none _).1 h2, rfl⟩)))
  · exact .inr (.inr (.inr (.inl ⟨(split_none _).1 ‹_›, rfl⟩)))
  · exact .inr (.inr (.inr (.inr ⟨(split_none _).1 ‹_›, rfl⟩)))

/-- R54: everything a write can do. -/
theorem txWrite_eq (bs : ByteString) (s : State) :
    ∃ k, (txWrite bs s).2 = { s with tx := s.tx ++ bs.take k } ∧ ((txWrite bs s).1 = .ok → k = bs.length) := by
  unfold txWrite; split
  · exact ⟨bs.length, by simp⟩
  · exact ⟨_, rfl, by simp⟩

/-- R145: what a failed command can change. -/
theorem commandFail_eq (e : Error) (s : State) : commandFail e s =
   { s with opWarn := (commandFail e s).opWarn, ph := (commandFail e s).ph, closeCont := (commandFail e s).closeCont, resp := (commandFail e s).resp } := by
  unfold commandFail; split <;> rfl

/-- R145: what a completed command can change. -/
theorem commandDone_eq (s : State) : commandDone s =
   { s with opWarn := (commandDone s).opWarn, ph := (commandDone s).ph, st := (commandDone s).st, resp := (commandDone s).resp } ∧ (s.ph ≠ .opAckO → (commandDone s).st = s.st) := by
  unfold commandDone; split <;> simp_all [respondOk]

/-- R145: what the write label can change. -/
theorem writeLabel_eq (text : ByteString) (s : State) : ∃ k, writeLabel text s = 
   { s with opWarn := (writeLabel text s).opWarn, ph := (writeLabel text s).ph, closeCont := (writeLabel text s).closeCont, resp := (writeLabel text s).resp, 
            tx := s.tx ++ (text ++ [cr]).take k } := by
  unfold writeLabel txWrite
  cases s.draw.write with
  | ok => exact ⟨(text ++ [cr]).length, by simp⟩
  | ioError n => exact ⟨n, by simp only; rw [commandFail_eq]⟩

/-- R145, R146: what the ACK label can change. -/
theorem ackLabel_eq (text : ByteString) (s : State) : ackLabel text s = 
   { s with st := (ackLabel text s).st, ph := (ackLabel text s).ph, opWarn := (ackLabel text s).opWarn, closeCont := (ackLabel text s).closeCont,
            warnLog := (ackLabel text s).warnLog, resp := (ackLabel text s).resp, rxq := (ackLabel text s).rxq } ∧ 
     (s.ph ≠ .opAckO → (ackLabel text s).st = s.st) ∧ s.warnLog <+: (ackLabel text s).warnLog := by
  unfold ackLabel
  rcases readExact1_cases s with ⟨h0, h⟩ | ⟨b, r, h0, h⟩ | ⟨h0, h1, h⟩ | ⟨h0, h⟩
  · simp only [h]; rw [commandFail_eq]; simp
  · simp only [h]
    split_ifs <;> rw [(commandDone_eq _).1] <;> simp [warn] <;> intro hh <;> rw [(commandDone_eq _).2 (by simpa using hh)]
  · simp only [h]; split
    · rw [(commandDone_eq _).1]; simp [warn]; intro hh; rw [(commandDone_eq _).2 (by simpa using hh)]
    · rw [commandFail_eq]; simp
  · simp only [h]; simp [waiting]

/-- R51: when an outgoing row is written, and as what. -/
theorem writeLine_next {l text s t} (h : writeLine l text s = .next t) :
    s.ph = l ∧ commandText s = some text ∧ s.halted = false ∧ s.held = true ∧ t = writeLabel text s := by
  simp only [writeLine, withHandle] at h; split_ifs at h with a b c; simp_all

/-- R140: when a request is accepted. -/
theorem accept_next {s n t : State} (h : accept s n = .next t) : s.ph = .idle ∧ s.halted = false ∧ n = t := by
  unfold accept at h; split_ifs at h with a b; simp_all

/-- R145: the outcomes of one label of sendCommand, `t` from `u`. -/
inductive CommandCase (text : ByteString) (u t : State) : Prop where
  | wrote (hp : u.ph.writes = true) (h : t = { u with tx := u.tx ++ (text ++ [cr]), ph := u.ph.afterWrite })
  | writeFailed (hp : u.ph.writes = true) (k) (h : t = commandFail (.transport .writeFailed) { u with tx := u.tx ++ (text ++ [cr]).take k })
  | byte (hp : u.ph.writes = false) (b rest) (hq : u.rxq = b :: rest) (h : t = commandDone (if isAck b then { u with rxq := rest } else warn text (some b) { u with rxq := rest }))
  | timeoutWarn (hp : u.ph.writes = false) (hm : mayTimeOut u = true) (h : t = commandDone (warn text none u))
  | ackFailed (hp : u.ph.writes = false) (e) (h : t = commandFail e u)
  | blocked (hp : u.ph.writes = false) (h : t = waiting u)

/-- R145: the label of sendCommand does one of these. -/
theorem command_cases (text : ByteString) (u : State) : CommandCase text u (commandLabel text u) := by
  unfold commandLabel
  split_ifs with hw
  · unfold writeLabel txWrite
    cases u.draw.write with
    | ok => exact .wrote hw rfl
    | ioError n => exact .writeFailed hw n rfl
  · simp at hw
    unfold ackLabel
    rcases readExact1_cases u with ⟨h0, h⟩ | ⟨b, r, h0, h⟩ | ⟨h0, h1, h⟩ | ⟨h0, h⟩
    · simp only [h]; exact .ackFailed hw _ rfl
    · simp only [h]; exact .byte hw b r h0 rfl
    · simp only [h]; split
      · exact .timeoutWarn hw h1 rfl
      · exact .ackFailed hw _ rfl
    · simp only [h]; exact .blocked hw rfl

/-- R148: what the read label can do. -/
theorem read_cases (u : State) :
    (∃ q v, readLabel u = respondOk v { u with rxq := q }) ∨ (∃ q e, readLabel u = respondErr e { u with rxq := q }) ∨ readLabel u = waiting u := by
  unfold readLabel
  rcases readUntilCR_cases u with ⟨g0, g⟩ | ⟨l, r', g1, g0, g⟩ | ⟨g0, g1, lost, g⟩ | ⟨g0, g⟩ | ⟨g0, g⟩ <;> simp only [g]
  · exact .inr (.inl ⟨u.rxq, _, rfl⟩)
  · unfold receiveBytes; split
    · exact .inr (.inl ⟨_, _, rfl⟩)
    · split
      · exact .inr (.inl ⟨_, _, rfl⟩)
      · exact .inl ⟨_, _, rfl⟩
  · exact .inr (.inl ⟨_, _, rfl⟩)
  · unfold receiveBytes; split
    · exact .inr (.inl ⟨_, _, rfl⟩)
    · split
      · exact .inr (.inl ⟨_, _, rfl⟩)
      · exact .inl ⟨_, _, rfl⟩
  · simp

/-- R149: what the close sequence's write can do. -/
theorem close_eq (u : State) :
    ∃ k, closeLabel u = { u with tx := u.tx ++ (cLine ++ [cr]).take k, ph := .clRelease } := by
  obtain ⟨k, hk, _⟩ := txWrite_eq (cLine ++ [cr]) u
  exact ⟨k, by simp only [closeLabel, hk]⟩

/-- R24: a primitive runs exactly while the handle is held. -/
theorem withHandle_next {s n t : State} (h : withHandle s n = .next t) : s.held = true ∧ t = n := by
  unfold withHandle at h; split_ifs at h with hh; simp_all

/-- R142, R53: everything OpAcquire can do. -/
theorem acquire_cases (c : AdapterConfig) (s : State) :
    (s.draw.acquire = .fail ∧ acquireLabel c s = respondErr (.transport .acquireFailed) s) ∨
    (∃ found, s.draw.acquire = .ok found ∧
      acquireLabel c s = { s with held := true, cfg := some c, st := .opening, handle := some (handleFor c),
                                  rxq := found.getD s.rxq, ph := .opWriteS }) := by
  unfold acquireLabel; split <;> simp_all

/-- R149: everything ClRelease can do. -/
theorem release_cases (s : State) :
    (∃ v, s.closeCont = .reply v ∧
      releaseLabel s = respondOk v { s with held := false, cfg := none, st := .closed, handle := none }) ∨
    (∃ e, s.closeCont = .replyErr e ∧
      releaseLabel s = respondErr e { s with held := false, cfg := none, st := .closed, handle := none }) ∨
    (s.closeCont = .halt ∧
      releaseLabel s = halt { s with held := false, cfg := none, st := .closed, handle := none }) := by
  unfold releaseLabel; cases h : s.closeCont <;> simp

/-- R150: everything the teardown input can do to a session that is not halted. -/
theorem tearDown_cases (s : State) :
    tearDown s = { s with closeCont := .halt } ∨ tearDown s = halt s ∨
    tearDown s = { s with opWarn := [], closeCont := .halt, ph := .clWrite } := by
  unfold tearDown; split
  · simp
  · simp
  · split_ifs <;> simp

end Sys2Proof.Machine
end

