-- ==== Sys2Proof/Laws/PerInstr.lean ====
section
/-! SUPPORT. Statements made per instruction: what the word of a well-formed instruction looks like. -/

namespace Sys2Proof.Laws.Encoding

/-- R73 to R80, R84, R112: the word of a well-formed instruction is a port word that carries the instruction, the teardown
input, the session's command, or 1 to 22 bytes on the wire that end in CR unless they are the acknowledge. -/
def WordShape (i : Instr) : InstrWord → Prop
  | .port w => decodeRequest w = i
  | .teardownPin => i = .teardown
  | .command text => i = .sendCmd text
  | .wire bytes => 1 ≤ bytes.length ∧ bytes.length ≤ 22 ∧ (bytes = [0x06#8] ∨ bytes.getLast? = some 0x0D#8)

/-- The family: every well-formed instruction's word has that shape. -/
def Statement (i : Instr) : Prop := ∀ lower : Bool, i.wf lower = true → WordShape i (Sys2Proof.encode i)

end Sys2Proof.Laws.Encoding

/-- R74, R112: an accepted line has 5 to 21 bytes. -/
theorem Sys2Proof.Machine.decodeLine_length {lower : Bool} {line : Sys2Proof.ByteString} {f : Sys2Proof.CanFrame}
    (h : Sys2Proof.Machine.decodeLine lower line = .ok f) : 5 ≤ line.length ∧ line.length ≤ 21 := by
  unfold Sys2Proof.Machine.decodeLine at h
  split at h
  · cases h
  · split at h
    · cases h
    · split at h
      · split at h
        · cases h
        · split at h
          · cases h
          · split at h
            · cases h
            · rename_i hn
              split at h
              · cases h
              · rename_i hs
                split at h
                · cases h
                · rename_i ht
                  simp only [List.length_cons, Sys2Proof.Config.lenMax] at *
                  omega
      · cases h

theorem Sys2Proof.Laws.Encoding.encode (f : Sys2Proof.CanFrame) :
    Sys2Proof.Laws.Encoding.Statement (.encode f) := fun _ _ => rfl

theorem Sys2Proof.Laws.Encoding.decode (l : Sys2Proof.ByteString) :
    Sys2Proof.Laws.Encoding.Statement (.decode l) := fun _ _ => rfl

theorem Sys2Proof.Laws.Encoding.openReq (c : Sys2Proof.AdapterConfig) :
    Sys2Proof.Laws.Encoding.Statement (.openReq c) := fun _ _ => rfl

theorem Sys2Proof.Laws.Encoding.send (f : Sys2Proof.CanFrame) :
    Sys2Proof.Laws.Encoding.Statement (.send f) := fun _ _ => rfl

theorem Sys2Proof.Laws.Encoding.receive : Sys2Proof.Laws.Encoding.Statement .receive := fun _ _ => rfl

theorem Sys2Proof.Laws.Encoding.close : Sys2Proof.Laws.Encoding.Statement .close := fun _ _ => rfl

theorem Sys2Proof.Laws.Encoding.reserved000 : Sys2Proof.Laws.Encoding.Statement .reserved000 := fun _ _ => rfl

theorem Sys2Proof.Laws.Encoding.reserved111 : Sys2Proof.Laws.Encoding.Statement .reserved111 := fun _ _ => rfl

theorem Sys2Proof.Laws.Encoding.teardown : Sys2Proof.Laws.Encoding.Statement .teardown := fun _ _ => rfl

theorem Sys2Proof.Laws.Encoding.sendCmd (text : Sys2Proof.ByteString) :
    Sys2Proof.Laws.Encoding.Statement (.sendCmd text) := fun _ _ => rfl

theorem Sys2Proof.Laws.Encoding.wireTx (f : Sys2Proof.CanFrame) :
    Sys2Proof.Laws.Encoding.Statement (.wireTx f) := by
  intro _ h
  simp only [Sys2Proof.Instr.wf, Sys2Proof.CanFrame.encodable, Sys2Proof.Config.lenMax, Bool.and_eq_true,
    decide_eq_true_eq] at h
  have hl := Sys2Proof.Machine.length_flatMap_hex2 f.payload
  refine ⟨by simp, ?_, .inr ?_⟩
  · simp only [Sys2Proof.Machine.frameFields, Sys2Proof.Machine.hex3, List.length_cons, List.length_append,
      List.length_nil, hl]
    omega
  · rw [List.getLast?_cons, List.getLast?_append]; rfl

theorem Sys2Proof.Laws.Encoding.wireRx (line : Sys2Proof.ByteString) :
    Sys2Proof.Laws.Encoding.Statement (.wireRx line) := by
  intro lower h
  simp only [Sys2Proof.Instr.wf] at h
  cases hd : Sys2Proof.Machine.decodeLine lower line with
  | error e => rw [hd] at h; cases h
  | ok f =>
    have hl := Sys2Proof.Machine.decodeLine_length hd
    refine ⟨by simp, ?_, .inr ?_⟩
    · simp only [List.length_append, List.length_cons, List.length_nil]; omega
    · rw [List.getLast?_append]; rfl

theorem Sys2Proof.Laws.Encoding.wireS (code : Nat) : Sys2Proof.Laws.Encoding.Statement (.wireS code) :=
  fun _ _ => ⟨by simp, by simp [Sys2Proof.Machine.sLine], .inr rfl⟩

theorem Sys2Proof.Laws.Encoding.wireO : Sys2Proof.Laws.Encoding.Statement .wireO :=
  fun _ _ => ⟨by decide, by decide, .inr rfl⟩

theorem Sys2Proof.Laws.Encoding.wireC : Sys2Proof.Laws.Encoding.Statement .wireC :=
  fun _ _ => ⟨by decide, by decide, .inr rfl⟩

theorem Sys2Proof.Laws.Encoding.wireAck : Sys2Proof.Laws.Encoding.Statement .wireAck :=
  fun _ _ => ⟨by decide, by decide, .inl rfl⟩
end

