-- ==== Sys2Proof/Laws/Step.lean ====
section
/-! SUPPORT. What a request, a session step and a step can do, each said once (41_session.md R140, R160). -/

namespace Sys2Proof.Machine

/-- R140: the outcomes of a request that is taken, `t` from `s`. -/
inductive RequestCase (s t : State) : Prop where
  | ok (v) (h : t = respondOk v s)
  | err (e) (h : t = respondErr e s)
  | opens (c) (hs : s.st = .closed) (hw : c.wf = true) (h : t = { s with openReq := some c, ph := .opAcquire })
  | sends (f line) (hs : s.st = .opened) (he : encodeFrame f = .ok line) (h : t = { s with lineBuf := line, ph := .sdWrite })
  | receives (hs : s.st = .opened) (h : t = { s with ph := .rcRead })
  | closes (hs : s.st ≠ .closed) (h : t = { s with closeCont := .reply .unit, ph := .clWrite })

/-- R140: a request that is taken is taken while idle, and does one of these. -/
theorem request_cases {w : PortWord} {s t : State} (h : exec (decodeRequest w) s = .next t) :
    s.ph = .idle ∧ s.halted = false ∧ RequestCase s t := by
  unfold decodeRequest at h
  by_cases h0 : w.op = 0#3
  · simp [h0, exec, execReserved000] at h
  by_cases h1 : w.op = 1#3
  · simp only [h1, exec, execEncode] at h; obtain ⟨a, b, rfl⟩ := accept_next h; refine ⟨a, b, ?_⟩; split
    exact .ok _ rfl; exact .err _ rfl
  by_cases h2 : w.op = 2#3
  · simp only [h2, exec, execDecode] at h; obtain ⟨a, b, rfl⟩ := accept_next h; refine ⟨a, b, ?_⟩; split
    exact .ok _ rfl; exact .err _ rfl
  by_cases h3 : w.op = 3#3
  · simp only [h3, exec, execOpenReq] at h
    simp at h
    split_ifs at h with hw hs
    · obtain ⟨a, b, rfl⟩ := accept_next h; exact ⟨a, b, .opens _ hs hw rfl⟩
    · obtain ⟨a, b, rfl⟩ := accept_next h; exact ⟨a, b, .err _ rfl⟩
  by_cases h4 : w.op = 4#3
  · simp only [h4, exec, execSend] at h; obtain ⟨a, b, rfl⟩ := accept_next h; refine ⟨a, b, ?_⟩; split
    · split
      · exact .sends _ _ ‹_› ‹_› rfl
      · exact .err _ rfl
    · exact .err _ rfl
  by_cases h5 : w.op = 5#3
  · simp only [h5, exec, execReceive] at h; obtain ⟨a, b, rfl⟩ := accept_next h; refine ⟨a, b, ?_⟩; split
    · exact .receives ‹_› rfl
    · exact .err _ rfl
  by_cases h6 : w.op = 6#3
  · simp only [h6, exec, execClose] at h; obtain ⟨a, b, rfl⟩ := accept_next h; refine ⟨a, b, ?_⟩; split
    · exact .ok _ rfl
    · exact .closes ‹_› rfl
  · simp [h0, h1, h2, h3, h4, h5, h6, exec, execReserved111] at h

/-- R145: at an ACK label the row is sendCommand. -/
theorem outgoing_ack {s text} (hw : s.ph.writes = false) :
    outgoing text s = .sendCmd text := by
  unfold outgoing; split <;> simp_all [Phase.writes]

/-- R145: at a command label the move is the row of the command. -/
theorem sessionMove_command {u : State} {text} (h : commandText u = some text) :
    sessionMove u = (.run (outgoing text u), u) := by
  unfold sessionMove
  rw [h]
  cases hp : u.ph <;> simp [commandText, hp] at h <;> simp

/-- R160: a scheduled session step is the session's move. -/
theorem step_session {s : State} {d rest} (h1 : s.halted = false) (hi : s.inputs = .session d :: rest) :
   step s = perform (sessionMove { s with inputs := rest, draw := d }).1 (sessionMove { s with inputs := rest, draw := d }).2 := by
  unfold step nextMove; rw [hi]; rw [if_neg (by simp [h1])]

/-- R160: with an empty schedule the step is the session's move, with a free draw (log entries 2 and 7). -/
theorem step_unscheduled {s : State} (h1 : s.halted = false) (hi : s.inputs = []) :
    step s = perform (sessionMove (freeDrawn s)).1 (sessionMove (freeDrawn s)).2 := by
  unfold step nextMove; rw [hi]; rw [if_neg (by simp [h1])]

/-- R160: the outcomes of a session step, `t` from the state `u` with the draw latched. -/
inductive SessionCase (u t : State) : Prop where
  | request (w : PortWord) (ws) (hp : u.ph = .idle) (hr : u.requests = w :: ws) (h : exec (decodeRequest w) { u with requests := ws } = .next t)
  | wait (hp : u.ph = .idle) (h : t = waiting u)
  | acquire (c) (hp : u.ph = .opAcquire) (hc : u.openReq = some c) (h : t = acquireLabel c u)
  | command (text) (hc : commandText u = some text) (h : exec (outgoing text u) u = .next t)
  | read (hp : u.ph = .rcRead) (hh : u.held = true) (h : t = readLabel u)
  | closeWrite (hp : u.ph = .clWrite) (hh : u.held = true) (h : t = closeLabel u)
  | release (hp : u.ph = .clRelease) (hh : u.held = true) (h : t = releaseLabel u)

/-- R160: a session step does one of these. -/
theorem session_cases {u t : State} (hn : u.halted = false) (h : perform (sessionMove u).1 (sessionMove u).2 = .next t) :
    SessionCase u t := by
  by_cases hc : ∃ text, commandText u = some text
  · obtain ⟨text, hc⟩ := hc
    rw [sessionMove_command hc] at h
    simp only [perform] at h
    exact .command text hc h
  · simp only [not_exists] at hc
    unfold sessionMove at h
    split at h
    · rename_i hp
      split at h
      · exact .request _ _ hp ‹_› h
      · simp [perform] at h; exact .wait hp h.symm
    · rename_i hp
      simp only [perform, acquireStep] at h
      split at h
      · simp at h; exact .acquire _ hp ‹_› h.symm
      · cases h
    · rename_i hp
      simp only [perform, readStep, withHandle] at h; split_ifs at h with hh; simp at h; exact .read hp hh h.symm
    · rename_i hp
      simp [perform, exec, execWireC, hn, hp, withHandle] at h; split_ifs at h with hh; simp at h; exact .closeWrite hp hh h.symm
    · rename_i hp
      simp only [perform, releaseStep, withHandle] at h; split_ifs at h with hh; simp at h; exact .release hp hh h.symm
    · split at h
      · exact absurd ‹_› (hc _)
      · simp [perform] at h

/-- R160: the outcomes of a step, `t` from `s`. -/
inductive StepCase (s t : State) : Prop where
  | append (bytes) (rest) (hi : s.inputs = .append bytes :: rest) (h : perform (arriving bytes s) { s with inputs := rest } = .next t)
  | teardown (rest) (hi : s.inputs = .teardown :: rest) (h : t = tearDown { s with inputs := rest })
  | session (u) (hu : u = { s with inputs := u.inputs, draw := u.draw, draws := u.draws }) (hm : nextMove s = sessionMove u) (h : SessionCase u t)

/-- R160: a step does one of these, and never after halt. -/
theorem step_cases {s t : State} (h : step s = .next t) : s.halted = false ∧ StepCase s t := by
  have hn : s.halted = false := by
    by_contra hh; simp at hh; simp [step, nextMove, hh, perform] at h
  refine ⟨hn, ?_⟩
  match hi : s.inputs with
  | .append bytes :: rest =>
    unfold step nextMove at h; rw [hi, if_neg (by simp [hn])] at h
    exact .append bytes rest hi h
  | .teardown :: rest =>
    simp [step, nextMove, hi, hn, perform, exec, execTeardown] at h; exact .teardown rest hi (by rw [← h, hn])
  | .session d :: rest =>
    rw [step_session hn hi] at h
    exact .session { s with inputs := rest, draw := d } rfl (by unfold nextMove; rw [hi, if_neg (by simp [hn])]) (session_cases (u := { s with inputs := rest, draw := d }) hn h)
  | [] =>
    rw [step_unscheduled hn hi] at h
    exact .session (freeDrawn s) rfl (by unfold nextMove; rw [hi, if_neg (by simp [hn])]) (session_cases (u := freeDrawn s) hn h)

end Sys2Proof.Machine
end

