-- ==== Sys2Proof/Tests/Slice0.lean ====
section
/-! SUPPORT. The model's own tests. Expected results are worked by hand from the spec's tables: 30_encoding.md R70 to R84, and the
rows of 95_test_vectors.md named beside each (W, EV, DV, S). A `witness_` theorem shows concrete states and operands
that meet the hypotheses of the obligation it is named after. -/

namespace Sys2Proof.Tests

open Sys2Proof Sys2Proof.Machine

/-- Bytes from their numbers. -/
def bytes (l : List Nat) : ByteString := l.map (BitVec.ofNat 8)

/-- The next state of an outcome. -/
def next : Host.Outcome State Fault Refusal → Option State
  | .next s => some s
  | .fault _ => none
  | .refused _ => none

/-- The refusal of an outcome. -/
def refusal : Host.Outcome State Fault Refusal → Option Refusal
  | .next _ => none
  | .fault _ => none
  | .refused r => some r

/-- The configuration of the spec's programs (95, section 3). -/
def cfg0 : AdapterConfig :=
  { transportId := bytes [0x64, 0x65, 0x76, 0x30], baud := 115200, readTimeout := some ⟨1, by decide⟩,
    bitrateCode := 7, debug := false }

def draw0 : Draw := { acquire := .ok none, write := .ok, read := .deliver, now := ⟨0⟩, arrival := [] }

/-- A closed, idle session. -/
def shut : State where
  st := .closed
  ph := .idle
  held := false
  cfg := none
  lineBuf := []
  opWarn := []
  closeCont := .reply .unit
  warnLog := []
  halted := false
  resp := none
  tx := []
  rxq := []
  handle := none
  openReq := none
  params := Params.default
  requests := []
  inputs := []
  draw := draw0
  draws := 1

/-- A session holding `c`, at `ph` in `st`. -/
def holding (c : AdapterConfig) (ph : Phase) (st : Lifecycle) : State :=
  { shut with ph := ph, st := st, held := true, cfg := some c, handle := some (handleFor c) }

/-- An open, idle session. -/
def opened : State := holding cfg0 .idle .opened

/-- The frame of W1. -/
def frame1 : CanFrame := { id := 0x123, length := 2, payload := bytes [0xAB, 0xCD], timestamp := none }

/-- The line of W1, without its CR. -/
def line1 : ByteString := bytes [0x54, 0x31, 0x32, 0x33, 0x32, 0x41, 0x42, 0x43, 0x44]

/-- The line of W2, without its CR. -/
def line2 : ByteString := bytes [0x74, 0x31, 0x32, 0x33, 0x32, 0x41, 0x42, 0x43, 0x44]

/-- A session at `ph` of SEND of frame1. -/
def sending (ph : Phase) : State := { holding cfg0 ph .opened with lineBuf := line1 }

/-! ### Well-formedness: an ill-formed term for each check -/

theorem test_wf_config_code : (Instr.openReq { cfg0 with bitrateCode := 10 }).wf true = false := by decide
theorem test_wf_config_code_limit : (Instr.openReq { cfg0 with bitrateCode := 9 }).wf true = true := by decide
theorem test_wf_sendCmd_cr : (Instr.sendCmd (bytes [0x4F, 0x0D])).wf true = false := by decide
theorem test_wf_wireTx_id : (Instr.wireTx ⟨0x1000, 0, [], none⟩).wf true = false := by decide
theorem test_wf_wireTx_length : (Instr.wireTx ⟨0, 9, bytes [0, 0, 0, 0, 0, 0, 0, 0, 0], none⟩).wf true = false := by decide
theorem test_wf_wireTx_mismatch : (Instr.wireTx ⟨0, 1, [], none⟩).wf true = false := by decide
theorem test_wf_wireTx_timestamp : (Instr.wireTx ⟨0, 0, [], some ⟨0⟩⟩).wf true = false := by decide
theorem test_wf_wireRx_line : (Instr.wireRx line1).wf true = false := by decide
theorem test_wf_wireRx_case : (Instr.wireRx (bytes [0x74, 0x66, 0x30, 0x30, 0x30])).wf false = false := by decide
theorem test_wf_wireS_digit : (Instr.wireS 10).wf true = false := by decide

/-! ### Decoding: words written out from R73 to R78 and R84 -/

def port (op : BitVec 3) : PortWord := { op := op, frame := frame1, line := line2, cfg := cfg0 }

theorem test_decode_requests :
    decodeRequest (port 0b000#3) = .reserved000 ∧ decodeRequest (port 0b001#3) = .encode frame1 ∧
    decodeRequest (port 0b010#3) = .decode line2 ∧ decodeRequest (port 0b011#3) = .openReq cfg0 ∧
    decodeRequest (port 0b100#3) = .send frame1 ∧ decodeRequest (port 0b101#3) = .receive ∧
    decodeRequest (port 0b110#3) = .close ∧ decodeRequest (port 0b111#3) = .reserved111 := by decide
theorem test_decode_teardown : decode true .teardownPin = .ok .teardown := by decide
theorem test_decode_command : decode true (.command (bytes [0x4F])) = .ok (.sendCmd (bytes [0x4F])) := by decide
theorem test_decode_T : decode true (.wire (bytes [0x54, 0x31, 0x32, 0x33, 0x32, 0x41, 0x42, 0x43, 0x44, 0x0D])) = .ok (.wireTx frame1) := by decide
/-- R71: outgoing digits are uppercase. -/
theorem test_decode_T_lowercase : decode true (.wire (bytes [0x54, 0x66, 0x30, 0x30, 0x30, 0x0D])) = .error (.badFields 0x54#8) := by decide
theorem test_decode_t : decode true (.wire (bytes [0x74, 0x66, 0x46, 0x30, 0x30, 0x0D])) = .ok (.wireRx (bytes [0x74, 0x66, 0x46, 0x30, 0x30])) := by decide
theorem test_decode_t_strict : decode false (.wire (bytes [0x74, 0x66, 0x46, 0x30, 0x30, 0x0D])) = .error (.badFields 0x74#8) := by decide
theorem test_decode_S : decode true (.wire (bytes [0x53, 0x39, 0x0D])) = .ok (.wireS 9) := by decide
theorem test_decode_S_digit : decode true (.wire (bytes [0x53, 0x3A, 0x0D])) = .error (.badFields 0x53#8) := by decide
theorem test_decode_O : decode true (.wire (bytes [0x4F, 0x0D])) = .ok .wireO := by decide
theorem test_decode_C : decode true (.wire (bytes [0x43, 0x0D])) = .ok .wireC := by decide
theorem test_decode_C_extra : decode true (.wire (bytes [0x43, 0x43, 0x0D])) = .error (.badFields 0x43#8) := by decide
theorem test_decode_ack : decode true (.wire (bytes [0x06])) = .ok .wireAck := by decide
theorem test_decode_no_marker : decode true (.wire (bytes [0x56, 0x0D])) = .error (.unknownMarker 0x56#8) := by decide
theorem test_decode_no_cr : decode true (.wire (bytes [0x4F])) = .error .unterminated := by decide
theorem test_decode_empty : decode true (.wire []) = .error .empty := by decide
theorem test_table_words :
    decodeTableWord 24 0x53370D = some (.wireS 7) ∧ decodeTableWord 16 0x4F0D = some .wireO ∧
    decodeTableWord 16 0x430D = some .wireC ∧ decodeTableWord 8 0b001 = some (.encode default) ∧
    decodeTableWord 8 0b100 = some (.send default) := by decide

/-! ### Placing a word: the next step from reset runs it -/

theorem test_fetch_request : (nextMove (State.reset.withFetchWord 8 0b101)).1 = .run .receive := by rfl
theorem test_fetch_S : (nextMove (State.reset.withFetchWord 24 0x53330D)).1 = .run (.wireS 3) := by rfl
theorem test_fetch_O : (nextMove (State.reset.withFetchWord 16 0x4F0D)).1 = .run .wireO := by rfl
theorem test_fetch_C : (nextMove (State.reset.withFetchWord 16 0x430D)).1 = .run .wireC := by rfl
theorem test_fetch_T : (nextMove (State.reset.withFetchWord 48 0x54303030300D)).1 = .run (.wireTx ⟨0, 0, [], none⟩) := by rfl
theorem test_fetch_t : (nextMove (State.reset.withFetchWord 48 0x74303030300D)).1 = .run (.wireRx (bytes [0x74, 0x30, 0x30, 0x30, 0x30])) := by rfl
theorem test_fetch_O_steps : (next (step (shut.withFetchWord 16 0x4F0D))).map (·.tx) = some (bytes [0x4F, 0x0D]) := by decide

/-! ### The codec -/

/-- EV3, EV6, EV7. -/
theorem test_encode_vectors :
    encodeFrame ⟨0x7FF, 8, bytes [0x00, 0x11, 0x22, 0x33, 0x44, 0x55, 0x66, 0x77], none⟩ =
      .ok (bytes [0x54, 0x37, 0x46, 0x46, 0x38, 0x30, 0x30, 0x31, 0x31, 0x32, 0x32, 0x33, 0x33, 0x34, 0x34, 0x35, 0x35, 0x36, 0x36, 0x37, 0x37]) ∧
    encodeFrame ⟨0x00A, 1, bytes [0x0A], none⟩ = .ok (bytes [0x54, 0x30, 0x30, 0x41, 0x31, 0x30, 0x41]) ∧
    encodeFrame ⟨0x005, 4, bytes [0xDE, 0xAD, 0xBE, 0xEF], none⟩ =
      .ok (bytes [0x54, 0x30, 0x30, 0x35, 0x34, 0x44, 0x45, 0x41, 0x44, 0x42, 0x45, 0x45, 0x46]) := by decide

/-- EV12: the order of Encode's checks. -/
theorem test_encode_priority : encodeFrame ⟨0x1000, 9, [], none⟩ = .error .idRange := by decide

/-- DV6, DV7, DV14, DV18, DV20, DV21: errors of Decode, and what lowercase does. -/
theorem test_decode_vectors :
    decodeLine true (bytes [0x74, 0x31, 0x32, 0x33, 0x32, 0x61, 0x62, 0x63, 0x64]) = .ok frame1 ∧
    decodeLine false (bytes [0x74, 0x31, 0x32, 0x33, 0x32, 0x61, 0x62, 0x63, 0x64]) = .error (.decoding .badDataHex) ∧
    decodeLine false (bytes [0x74, 0x30, 0x61, 0x30, 0x31, 0x66, 0x66]) = .error (.decoding .badIdHex) ∧
    decodeLine true (bytes [0x74, 0x31, 0x32, 0x33]) = .error (.decoding .short) ∧
    decodeLine true (bytes [0x74, 0x31, 0x32, 0x33, 0x20]) = .error (.decoding .badLenHex) ∧
    decodeLine true (bytes [0x74, 0x31, 0x32, 0x33, 0x41]) = .error (.decoding .lenRange) ∧
    decodeLine true (bytes [0x74, 0x31, 0x32, 0x33, 0x31]) = .error (.decoding .short) := by decide

/-- DV9, DV11, DV16, DV24: the marker, a stray ACK, a sign, and a trailing byte. -/
theorem test_decode_vectors_framing :
    decodeLine true [] = .error (.framing .badMarker) ∧
    decodeLine true (bytes [0x06, 0x74, 0x31, 0x32, 0x33, 0x30]) = .error (.framing .badMarker) ∧
    decodeLine true (bytes [0x74, 0x2D, 0x31, 0x32, 0x30]) = .error (.decoding .badIdHex) ∧
    decodeLine true (bytes [0x74, 0x31, 0x32, 0x33, 0x30, 0x58]) = .error (.decoding .trailing) := by decide

/-- R85, R200, R201: status codes and sub-reasons, from the taxonomy's tables. -/
theorem test_error_codes :
    [Error.encoding .idRange, .decoding .short, .framing .badMarker, .state .notClosed, .transport .acquireFailed,
      .timeout .readTimeout].map Error.kindCode = [1, 2, 3, 4, 5, 6] ∧
    [Error.encoding .lenMismatch, .decoding .trailing, .decoding .badDataHex, .framing .noTerminator, .state .notOpen,
      .transport .readFailed, .timeout .ackTimeout].map Error.subCode = [3, 5, 6, 2, 2, 3, 2] ∧
    (Response.ok .unit []).statusCode = 0 ∧ (Response.err (.timeout .ackTimeout) []).statusCode = 6 := by decide

/-! ### The session, one step each (S rows) -/

/-- S26. -/
theorem test_encode_request : (next (exec (.encode frame1) shut)).bind (·.resp) = some (.ok (.line line1) []) := by decide
/-- S27. -/
theorem test_decode_request :
    (next (exec (.decode line2) { opened with rxq := bytes [0x06] })).map (fun t => (t.resp, t.rxq)) =
      some (some (.ok (.frame frame1) []), bytes [0x06]) := by decide
/-- S10. -/
theorem test_open_while_open : (next (exec (.openReq cfg0) opened)).bind (·.resp) = some (.err (.state .notClosed) []) := by decide
/-- I14: a bad bitrate code is no request. -/
theorem test_open_ill_formed :
    refusal (exec (.openReq { cfg0 with bitrateCode := 10 }) shut) = some (.illFormedConfig 10) := by decide
/-- S1: the state is checked before the frame. -/
theorem test_send_closed :
    (next (exec (.send { frame1 with length := 3 }) shut)).bind (·.resp) = some (.err (.state .notOpen) []) := by decide
/-- S13. -/
theorem test_send_mismatch :
    (next (exec (.send { frame1 with length := 3 }) opened)).bind (·.resp) = some (.err (.encoding .lenMismatch) []) := by decide
/-- S2. -/
theorem test_receive_closed : (next (exec .receive shut)).bind (·.resp) = some (.err (.state .notOpen) []) := by decide
/-- W4, S16: the line read is the frame, the stream is empty after it. -/
theorem test_receive_read :
    (next (readStep { holding cfg0 .rcRead .opened with
      rxq := bytes [0x74, 0x30, 0x30, 0x35, 0x34, 0x44, 0x45, 0x41, 0x44, 0x42, 0x45, 0x45, 0x46, 0x0D] })).map
        (fun t => (t.resp, t.rxq)) =
      some (some (.ok (.frame ⟨0x005, 4, bytes [0xDE, 0xAD, 0xBE, 0xEF], some ⟨0⟩⟩) []), []) := by decide
/-- S3. -/
theorem test_close_closed : (next (exec .close shut)).bind (·.resp) = some (.ok .unit []) := by decide
/-- R149: CLOSE in Open goes to the close line. -/
theorem test_close_open : (next (exec .close opened)).map (fun t => (t.ph, t.resp)) = some (.clWrite, none) := by decide
/-- S28. -/
theorem test_reserved : refusal (exec (decodeRequest (port 0b111#3)) shut) = some (.reservedCode 7#3) := by decide
/-- S24. -/
theorem test_teardown_closed : (next (exec .teardown shut)).map (fun t => (t.halted, t.resp)) = some (true, none) := by decide
/-- S23, first step: teardown at SdAck starts the close sequence and will halt. -/
theorem test_teardown_sending :
    (next (exec .teardown (sending .sdAck))).map (fun t => (t.ph, t.closeCont)) = some (.clWrite, .halt) := by decide
/-- S12: a CR taken as the acknowledge is a warning and SEND answers ok. -/
theorem test_sendCmd_mismatch :
    (next (exec (.sendCmd line1) { sending .sdAck with rxq := bytes [0x0D] })).map (fun t => (t.resp, t.warnLog)) =
      some (some (.ok .unit [⟨line1, some 0x0D#8⟩]), [⟨line1, some 0x0D#8⟩]) := by decide
/-- S8: under policy error OPEN's timed-out acknowledge goes to the close sequence. -/
theorem test_sendCmd_ack_timeout :
    (next (exec (.sendCmd oLine) { holding cfg0 .opAckO .opening with
      draw := { draw0 with read := .timeout 0 }, params := { Params.default with ackTimeoutPolicy := .error } })).map
        (fun t => (t.ph, t.closeCont, t.warnLog)) = some (.clWrite, .replyErr (.timeout .ackTimeout), []) := by decide
/-- S14 on frame1: the sent part stays on tx. -/
theorem test_wireTx_partial :
    (next (exec (.wireTx frame1) { sending .sdWrite with draw := { draw0 with write := .ioError 2 } })).map
      (fun t => (t.tx, t.resp, t.st)) =
      some (bytes [0x54, 0x31], some (.err (.transport .writeFailed) []), .opened) := by decide
/-- S11, its write. -/
theorem test_wireTx :
    (next (exec (.wireTx frame1) (sending .sdWrite))).map (fun t => (t.tx, t.ph)) =
      some (line1 ++ [0x0D#8], .sdAck) := by decide
/-- S5, the S line. -/
theorem test_wireS : (next (exec (.wireS 7) (holding cfg0 .opWriteS .opening))).map (·.tx) = some (bytes [0x53, 0x37, 0x0D]) := by decide
/-- R83: another digit than the configuration's is not formed. -/
theorem test_wireS_other : refusal (exec (.wireS 6) (holding cfg0 .opWriteS .opening)) = some .lineNotFormed := by decide
/-- S5, the O line. -/
theorem test_wireO : (next (exec .wireO (holding cfg0 .opWriteO .opening))).map (·.tx) = some (bytes [0x4F, 0x0D]) := by decide
/-- S22: the close line's error is swallowed. -/
theorem test_wireC_swallowed :
    (next (exec .wireC { holding cfg0 .clWrite .opened with draw := { draw0 with write := .ioError 1 } })).map
      (fun t => (t.tx, t.ph, t.resp)) = some (bytes [0x43], .clRelease, none) := by decide
/-- P1 step 4: the close line. -/
theorem test_wireC : (next (exec .wireC (holding cfg0 .clWrite .opened))).map (·.tx) = some (bytes [0x43, 0x0D]) := by decide
/-- R36: bytes arrive at the end. -/
theorem test_wireRx_arrives :
    (next (exec (.wireRx line2) { opened with rxq := bytes [0x06] })).map (·.rxq) = some (0x06#8 :: (line2 ++ [0x0D#8])) := by decide
theorem test_wireAck_arrives : (next (exec .wireAck { opened with rxq := bytes [0x74] })).map (·.rxq) = some (bytes [0x74, 0x06]) := by decide
/-- S4. -/
theorem test_acquire_fails :
    (next (acquireStep { shut with ph := .opAcquire, openReq := some cfg0, draw := { draw0 with acquire := .fail } })).map
      (fun t => (t.resp, t.held)) = some (some (.err (.transport .acquireFailed) []), false) := by decide
/-- P1 step 4: the release. -/
theorem test_release :
    (next (releaseStep (holding cfg0 .clRelease .opened))).map (fun t => (t.st, t.cfg, t.resp)) =
      some (.closed, none, some (.ok .unit [])) := by decide

/-! ### Witnesses of the statements' hypotheses -/

theorem witness_HexDigitsAreTheBitFieldsHighFirst :
    hexChar 0 = 0x30#8 ∧ hexChar 9 = 0x39#8 ∧ hexChar 10 = 0x41#8 ∧ hexChar 15 = 0x46#8 := by decide
/-- The ends of the three ranges, and the bytes just outside them. -/
theorem witness_HexDigitsAcceptedAndTheirValues :
    (bytes [0x30, 0x39, 0x41, 0x46, 0x61, 0x66]).map (isHex true) = [true, true, true, true, true, true] ∧
    (bytes [0x2F, 0x3A, 0x40, 0x47, 0x60, 0x67]).map (isHex true) = [false, false, false, false, false, false] ∧
    (bytes [0x61, 0x66]).map (isHex false) = [false, false] ∧
    (bytes [0x30, 0x39, 0x41, 0x46, 0x61, 0x66]).map hexVal = [0, 9, 10, 15, 10, 15] := by decide
/-- EV9, EV10, EV13, EV4, EV14: a frame for each clause, at the boundaries. -/
theorem witness_EncodeAnswersLineOrFirstFailedCheck :
    encodeFrame ⟨0x1000, 0, [], none⟩ = .error .idRange ∧
    encodeFrame ⟨0xFFF, 9, bytes [0, 1, 2, 3, 4, 5, 6, 7, 8], none⟩ = .error .lenRange ∧
    encodeFrame ⟨0x7FF, 0, bytes [1], none⟩ = .error .lenMismatch ∧
    encodeFrame ⟨0xFFF, 1, bytes [0xFF], none⟩ = .ok (bytes [0x54, 0x46, 0x46, 0x46, 0x31, 0x46, 0x46]) ∧
    encodeFrame { frame1 with timestamp := some ⟨1⟩ } = .ok line1 := by decide
/-- EV2, EV3: the shortest and the longest line. -/
theorem witness_EncodedLineLengthAndAlphabet :
    encodeFrame ⟨0, 0, [], none⟩ = .ok (bytes [0x54, 0x30, 0x30, 0x30, 0x30]) ∧
    ∃ line, encodeFrame ⟨0xFFF, 8, bytes [0, 0, 0, 0, 0, 0, 0, 0], none⟩ = .ok line ∧ line.length = 21 :=
  ⟨by decide, _, rfl, by decide⟩
/-- DV4: the largest identifier. -/
theorem witness_DecodedFrameIsBoundedAndUntimed :
    decodeLine true (bytes [0x74, 0x46, 0x46, 0x46, 0x30]) = .ok ⟨0xFFF, 0, [], none⟩ := by decide
/-- DV22, DV23, DV1: digits as the hypotheses ask, with data for each of the three clauses; and the largest length digit. -/
theorem witness_DecodeNeverTruncatesOrPads :
    isHex true 0x31#8 = true ∧ isHex true 0x32#8 = true ∧ isHex true 0x33#8 = true ∧ hexVal 0x32#8 ≤ 8 ∧
    (bytes [0x41, 0x42]).length < 2 * hexVal 0x32#8 ∧
    2 * hexVal 0x32#8 < (bytes [0x41, 0x42, 0x43, 0x44, 0x45, 0x46]).length ∧
    decodeLine true (0x74#8 :: 0x31#8 :: 0x32#8 :: 0x33#8 :: 0x32#8 :: bytes [0x41, 0x42, 0x43, 0x44]) = .ok frame1 ∧
    isHex true 0x38#8 = true ∧ hexVal 0x38#8 = 8 := by decide
theorem witness_DecodeOfEncodeReproducesTheFrame :
    (⟨0xFFF, 8, bytes [0, 1, 2, 3, 4, 5, 6, 7], none⟩ : CanFrame).encodable = true ∧
    frame1.id ≤ 0xFFF ∧ frame1.length ≤ 8 ∧ frame1.payload.length = frame1.length := by decide
/-- Two frames that differ in the timestamp have one line, and two lines that differ in case have one frame. -/
theorem witness_CodecIsInjectiveUpToLetterCase :
    encodeFrame frame1 = .ok line1 ∧ encodeFrame { frame1 with timestamp := some ⟨1⟩ } = .ok line1 ∧
    decodeLine true line2 = .ok frame1 ∧
    decodeLine true (bytes [0x74, 0x31, 0x32, 0x33, 0x32, 0x61, 0x62, 0x63, 0x64]) = .ok frame1 ∧
    decodeLine false line2 = .ok frame1 := by decide
/-- The ends of the digit range, the acknowledge, and its neighbours. -/
theorem witness_CommandLinesAndAckAreTheirBytes :
    sLine 0 = bytes [0x53, 0x30] ∧ sLine 9 = bytes [0x53, 0x39] ∧
    (bytes [0x05, 0x06, 0x07, 0x0D]).map isAck = [false, true, false, false] := by decide
/-- A well-formed instruction of each kind of word, and an incoming line that keeps its lowercase letters. -/
theorem witness_DecodeOfEncodeIsTheInstruction :
    (Instr.send frame1).wf true = true ∧ Instr.teardown.wf true = true ∧ (Instr.sendCmd line1).wf true = true ∧
    (Instr.wireTx frame1).wf true = true ∧ (Instr.wireRx (bytes [0x74, 0x66, 0x46, 0x30, 0x30])).wf true = true ∧
    (Instr.wireS 9).wf true = true ∧ Instr.wireAck.wf true = true ∧ (Instr.openReq cfg0).wf true = true := by decide
/-- R73 to R78: bytes of each wire row that decode. -/
theorem witness_WireBytesAreTheEncodingOfWhatTheyDecodeTo :
    decodeWire true (line1 ++ [0x0D#8]) = .ok (.wireTx frame1) ∧ decodeWire true (line2 ++ [0x0D#8]) = .ok (.wireRx line2) ∧
    decodeWire true (bytes [0x53, 0x30, 0x0D]) = .ok (.wireS 0) ∧ decodeWire true (bytes [0x06]) = .ok .wireAck := by decide

theorem witness_CodecRequestsAnswerAtOnce :
    opened.halted = false ∧ opened.ph = .idle ∧ encodeFrame frame1 = .ok line1 ∧
    encodeFrame { frame1 with length := 3 } = .error .lenMismatch ∧
    decodeLine opened.params.hexAcceptLower line2 = .ok frame1 ∧
    decodeLine opened.params.hexAcceptLower line1 = .error (.framing .badMarker) := by decide
theorem witness_OpenIsAcceptedOnlyInClosed :
    shut.halted = false ∧ shut.ph = .idle ∧ shut.st = .closed ∧ opened.halted = false ∧ opened.ph = .idle ∧
    opened.st ≠ .closed ∧ cfg0.bitrateCode ≤ 9 ∧ 9 < { cfg0 with bitrateCode := 10 }.bitrateCode := by decide
theorem witness_TransfersInOpenGoToTheirLabels :
    opened.halted = false ∧ opened.ph = .idle ∧ opened.st = .opened ∧ encodeFrame frame1 = .ok line1 ∧
    encodeFrame ⟨0x1000, 0, [], none⟩ = .error .idRange := by decide
/-- Two errors with one sub-reason code and two with one kind code: each code alone tells too little. -/
theorem witness_ResponseCodesAreTheTables :
    (Error.encoding .idRange).subCode = (Error.timeout .readTimeout).subCode ∧
    (Error.decoding .short).kindCode = (Error.decoding .badDataHex).kindCode := by decide
theorem witness_TransfersOutsideOpenAreStateErrors :
    shut.halted = false ∧ shut.ph = .idle ∧ shut.st ≠ .opened := by decide
theorem witness_CloseStartsTheCloseSequenceOrIsANoOp :
    shut.halted = false ∧ shut.ph = .idle ∧ shut.st = .closed ∧
    opened.halted = false ∧ opened.ph = .idle ∧ opened.st ≠ .closed := by decide
theorem witness_RequestsAreAcceptedOnlyWhileIdle :
    Statements.isRequest (.send frame1) = true ∧ ∃ t, exec (.send frame1) opened = .next t := ⟨by decide, _, rfl⟩
/-- A state for each clause: halted, in the close sequence, Closed, and in flight. -/
theorem witness_TeardownClosesOrHalts :
    { shut with halted := true }.halted = true ∧
    (holding cfg0 .clWrite .opened).halted = false ∧ (holding cfg0 .clWrite .opened).ph = .clWrite ∧
    (holding cfg0 .clRelease .opened).ph = .clRelease ∧
    shut.halted = false ∧ shut.ph ≠ .clWrite ∧ shut.ph ≠ .clRelease ∧ shut.st = .closed ∧
    (sending .sdAck).halted = false ∧ (sending .sdAck).ph ≠ .clWrite ∧ (sending .sdAck).ph ≠ .clRelease ∧
    (sending .sdAck).st ≠ .closed := by decide
theorem witness_RequestsLeaveTheRestUnchanged :
    (∃ t, exec (.encode frame1) opened = .next t) ∧ (∃ t, exec (.decode line2) opened = .next t) ∧
    (∃ t, exec .receive opened = .next t) ∧ (∃ t, exec (.openReq cfg0) shut = .next t) ∧
    (∃ t, exec (.send frame1) opened = .next t) ∧ (∃ t, exec .close opened = .next t) ∧
    (∃ t, exec .teardown opened = .next t) :=
  ⟨⟨_, rfl⟩, ⟨_, rfl⟩, ⟨_, rfl⟩, ⟨_, rfl⟩, ⟨_, rfl⟩, ⟨_, rfl⟩, ⟨_, rfl⟩⟩

/-- Each of the three write labels. -/
theorem witness_CommandWriteAppendsTextAndCR :
    (sending .sdWrite).halted = false ∧ (sending .sdWrite).held = true ∧ (sending .sdWrite).draw.write = .ok ∧
    commandText (sending .sdWrite) = some line1 ∧ (sending .sdWrite).ph = .sdWrite ∧
    commandText (holding cfg0 .opWriteS .opening) = some (bytes [0x53, 0x37]) ∧
    commandText (holding cfg0 .opWriteO .opening) = some (bytes [0x4F]) := by decide
theorem witness_FailedWriteFailsTheCommand :
    { sending .sdWrite with draw := { draw0 with write := .ioError 2 } }.draw.write = .ioError 2 ∧
    commandText { sending .sdWrite with draw := { draw0 with write := .ioError 2 } } = some line1 ∧
    (sending .sdWrite).held = true ∧ (sending .sdWrite).halted = false ∧
    commandText { holding cfg0 .opWriteO .opening with draw := { draw0 with write := .ioError 0 } } = some oLine := by decide
/-- An acknowledge and another byte, at each of the three ACK labels. -/
theorem witness_AckReadTakesOneByteAndCompletes :
    { sending .sdAck with rxq := bytes [0x06] }.rxq = 0x06#8 :: [] ∧ (sending .sdAck).draw.read ≠ .ioError ∧
    (sending .sdAck).halted = false ∧ (sending .sdAck).held = true ∧
    commandText { sending .sdAck with rxq := bytes [0x07] } = some line1 ∧ (sending .sdAck).ph = .sdAck ∧
    commandText (holding cfg0 .opAckS .opening) = some (bytes [0x53, 0x37]) ∧
    commandText (holding cfg0 .opAckO .opening) = some (bytes [0x4F]) ∧ (0x07#8 : Byte) ≠ 0x06#8 := by decide

/-- A SEND whose ACK read finds nothing and may time out. -/
def unanswered : State := { sending .sdAck with draw := { draw0 with read := .timeout 0 } }

theorem witness_AckTimeoutFollowsThePolicy :
    unanswered.halted = false ∧ unanswered.held = true ∧ unanswered.draw.read = .timeout 0 ∧ unanswered.cfg = some cfg0 ∧
    cfg0.readTimeout ≠ none ∧ commandText unanswered = some line1 ∧ unanswered.ph = .sdAck ∧ unanswered.rxq = [] ∧
    unanswered.params.ackTimeoutPolicy = .warn ∧
    { unanswered with params := { Params.default with ackTimeoutPolicy := .error } }.params.ackTimeoutPolicy = .error ∧
    { holding cfg0 .opAckO .opening with draw := { draw0 with read := .timeout 0 } }.ph ≠ .sdAck := by decide
theorem witness_FailedAckReadFailsTheCommand :
    { sending .sdAck with draw := { draw0 with read := .ioError } }.draw.read = .ioError ∧
    commandText { sending .sdAck with draw := { draw0 with read := .ioError } } = some line1 ∧
    (sending .sdAck).held = true ∧ (sending .sdAck).halted = false ∧ (sending .sdAck).ph = .sdAck ∧
    commandText { holding cfg0 .opAckS .opening with draw := { draw0 with read := .ioError } } = some (sLine 7) := by decide

/-- A configuration with no read timeout. -/
def patient : AdapterConfig := { cfg0 with readTimeout := none }

theorem witness_AckReadWithoutTimeoutWaits :
    (holding patient .opAckO .opening).halted = false ∧ (holding patient .opAckO .opening).held = true ∧
    (holding patient .opAckO .opening).draw.read ≠ .ioError ∧ (holding patient .opAckO .opening).cfg = some patient ∧
    patient.readTimeout = none ∧ commandText (holding patient .opAckO .opening) = some oLine ∧
    (holding patient .opAckO .opening).ph = .opAckO ∧ (holding patient .opAckO .opening).rxq = [] := by decide
/-- A state for each clause, and each answer of the byte read. -/
theorem witness_ByteReadObeysItsLaw :
    { opened with rxq := bytes [0x15] }.rxq = 0x15#8 :: [] ∧
    (rxReadExact1 { opened with rxq := bytes [0x15] }).1 = .byte 0x15#8 ∧
    opened.rxq = [] ∧ opened.cfg = some cfg0 ∧ cfg0.readTimeout ≠ none ∧ (rxReadExact1 opened).1 = .blocked ∧
    (rxReadExact1 unanswered).1 = .timeout ∧
    (rxReadExact1 { opened with draw := { draw0 with read := .ioError } }).1 = .ioError := by decide
/-- S16, S19, S20, S21: a state for each clause, and each answer of the line read. -/
theorem witness_LineReadObeysItsLaw :
    cr ∉ bytes [0x74] ∧ { opened with rxq := bytes [0x74, 0x0D, 0x06] }.rxq = bytes [0x74] ++ cr :: bytes [0x06] ∧
    (rxReadUntilCR { opened with rxq := bytes [0x74, 0x0D, 0x06] }).1 = .bytes (bytes [0x74, 0x0D]) ∧
    cr ∉ { unanswered with rxq := bytes [0x74, 0x31, 0x32] }.rxq ∧ unanswered.cfg = some cfg0 ∧
    (rxReadUntilCR { unanswered with rxq := bytes [0x74, 0x31, 0x32] }).1 = .timeout ∧
    (rxReadUntilCR { opened with draw := { draw0 with read := .ioError } }).1 = .ioError ∧
    (rxReadUntilCR { opened with rxq := bytes [0x74], draw := { draw0 with read := .endOfStream } }).1 =
      .bytes (bytes [0x74]) ∧
    (rxReadUntilCR opened).1 = .blocked := by decide
theorem witness_SendCommandLeavesTheRestUnchanged :
    (∃ t, exec (.sendCmd line1) (sending .sdWrite) = .next t) ∧
    (∃ t, exec (.sendCmd line1) { sending .sdAck with rxq := bytes [0x06] } = .next t) ∧
    (sending .sdWrite).ph.writes = true ∧ (sending .sdAck).ph.writes = false :=
  ⟨⟨_, rfl⟩, ⟨_, rfl⟩, by decide, by decide⟩
theorem witness_SendCommandRunsOnlyInFlight :
    (∃ t, exec (.sendCmd oLine) (holding cfg0 .opWriteO .opening) = .next t) ∧
    opened.halted = false ∧ commandText opened ≠ some oLine := ⟨⟨_, rfl⟩, by decide, by decide⟩

theorem witness_OutgoingLinesReachTx :
    (sending .sdWrite).halted = false ∧ (sending .sdWrite).held = true ∧ (sending .sdWrite).draw.write = .ok ∧
    (sending .sdWrite).ph = .sdWrite ∧ encodeFrame frame1 = .ok line1 ∧ (sending .sdWrite).lineBuf = line1 ∧
    (holding cfg0 .opWriteS .opening).ph = .opWriteS ∧ (holding cfg0 .opWriteS .opening).cfg = some cfg0 ∧
    (holding cfg0 .opWriteO .opening).ph = .opWriteO ∧ (holding cfg0 .clWrite .opened).ph = .clWrite ∧
    (holding cfg0 .clWrite .opened).held = true ∧
    { holding cfg0 .clWrite .opened with draw := { draw0 with write := .ioError 1 } }.draw.write = .ioError 1 := by decide
theorem witness_OutgoingRowsAreSendCommandsWrites :
    (sending .sdWrite).halted = false ∧ encodeFrame frame1 = .ok line1 ∧ (sending .sdWrite).ph = .sdWrite ∧
    (sending .sdWrite).lineBuf = line1 ∧ ¬(opened.ph = .sdWrite ∧ opened.lineBuf = line1) ∧
    (holding cfg0 .opWriteS .opening).ph = .opWriteS ∧ (holding cfg0 .opWriteS .opening).cfg = some cfg0 ∧
    encodeFrame ⟨0x1000, 0, [], none⟩ = .error .idRange ∧ cfg0.bitrateCode ≤ 9 ∧ 9 ≠ cfg0.bitrateCode ∧
    { holding cfg0 .opWriteS .opening with cfg := none }.cfg = none ∧
    (holding cfg0 .opWriteO .opening).ph = .opWriteO ∧ opened.ph ≠ .opWriteS ∧ opened.ph ≠ .opWriteO ∧
    opened.ph ≠ .clWrite := by decide
theorem witness_WireRowsLeaveTheRestUnchanged :
    (∃ t, exec .wireO (holding cfg0 .opWriteO .opening) = .next t) ∧
    (∃ t, exec (.wireS 7) (holding cfg0 .opWriteS .opening) = .next t) ∧
    (∃ t, exec (.wireTx frame1) (sending .sdWrite) = .next t) ∧
    (∃ t, exec .wireC (holding cfg0 .clWrite .opened) = .next t) ∧
    (∃ t, exec (.wireRx line2) opened = .next t) ∧ (∃ t, exec .wireAck opened = .next t) :=
  ⟨⟨_, rfl⟩, ⟨_, rfl⟩, ⟨_, rfl⟩, ⟨_, rfl⟩, ⟨_, rfl⟩, ⟨_, rfl⟩⟩

theorem witness_StepRunsThePendingRequest :
    { shut with requests := [port 3#3], inputs := [.session draw0] }.requests = port 3#3 :: [] ∧
    { shut with requests := [port 3#3], inputs := [.session draw0] }.inputs = .session draw0 :: [] ∧
    { shut with requests := [port 3#3] }.inputs = [] ∧ shut.halted = false ∧ shut.ph = .idle := by decide
/-- A session's turn with a scheduled draw, and with a free one. -/
theorem witness_SessionTurn :
    Statements.SessionTurn { sending .sdAck with inputs := [.session draw0] } { sending .sdAck with draw := draw0 } ∧
    Statements.SessionTurn (sending .sdAck) { sending .sdAck with draw := Config.freeDraw 1, draws := 2 } :=
  ⟨.inl ⟨draw0, [], rfl, rfl⟩, .inr ⟨rfl, rfl⟩⟩
theorem witness_StepRunsTheWireRowAtItsLabel :
    (sending .sdAck).halted = false ∧ commandText (sending .sdAck) = some line1 ∧ (sending .sdAck).ph.writes = false ∧
    (holding cfg0 .opWriteS .opening).ph = .opWriteS ∧ (holding cfg0 .opWriteS .opening).cfg = some cfg0 ∧
    cfg0.bitrateCode ≤ 9 ∧ (holding cfg0 .opWriteO .opening).ph = .opWriteO ∧ (sending .sdWrite).ph = .sdWrite ∧
    frame1.timestamp = none ∧ encodeFrame frame1 = .ok (sending .sdWrite).lineBuf ∧
    (holding cfg0 .clWrite .opened).ph = .clWrite ∧ (holding cfg0 .clWrite .opened).inputs = [] ∧
    { opened with inputs := [.teardown] }.inputs = .teardown :: [] ∧
    { opened with inputs := [.append (line2 ++ [cr])] }.inputs = .append (line2 ++ [cr]) :: [] ∧
    decodeWire opened.params.hexAcceptLower (line2 ++ [cr]) = .ok (.wireRx line2) ∧
    decodeWire opened.params.hexAcceptLower [0x06#8] = .ok .wireAck := by decide

/-- OPEN at OpAcquire, with one draw scheduled. -/
def acquiring (a : AcquireDraw) : State :=
  { shut with ph := .opAcquire, openReq := some cfg0, inputs := [.session { draw0 with acquire := a }] }

theorem witness_AcquireLatchesTheConfiguration :
    (acquiring .fail).halted = false ∧ (acquiring .fail).inputs = .session { draw0 with acquire := .fail } :: [] ∧
    (acquiring .fail).ph = .opAcquire ∧ (acquiring .fail).openReq = some cfg0 ∧
    (acquiring (.ok (some []))).inputs = .session { draw0 with acquire := .ok (some []) } :: [] := by decide

/-- RECEIVE at its read, with the stream `q` and one draw scheduled. -/
def receiving (q : ByteString) (r : ReadDraw) : State :=
  { holding cfg0 .rcRead .opened with rxq := q, inputs := [.session { draw0 with read := r }] }

theorem witness_ReceiveConsumesOneLineAndAnswers :
    (receiving (line2 ++ cr :: [0x06#8]) .deliver).halted = false ∧ (receiving (line2 ++ cr :: [0x06#8]) .deliver).held = true ∧
    (receiving (line2 ++ cr :: [0x06#8]) .deliver).inputs = .session draw0 :: [] ∧
    (receiving (line2 ++ cr :: [0x06#8]) .deliver).ph = .rcRead ∧ draw0.read ≠ .ioError ∧ cr ∉ line2 ∧
    (receiving (line2 ++ cr :: [0x06#8]) .deliver).rxq = line2 ++ cr :: [0x06#8] := by decide
theorem witness_ReceiveWithoutALine :
    (receiving [] .ioError).halted = false ∧ (receiving [] .ioError).held = true ∧ (receiving [] .ioError).ph = .rcRead ∧
    (receiving [] .ioError).inputs = .session { draw0 with read := .ioError } :: [] ∧
    mayTimeOut (receiving (bytes [0x74]) (.timeout 1)) = true ∧ cr ∉ (receiving (bytes [0x74]) (.timeout 1)).rxq ∧
    cr ∉ (receiving (bytes [0x74]) .endOfStream).rxq ∧ cr ∉ (receiving [] .deliver).rxq ∧
    mayTimeOut (holding patient .rcRead .opened) = false ∧ cr ∉ (holding patient .rcRead .opened).rxq := by decide
theorem witness_ReleaseEndsThePeriodAndAnswers :
    { holding cfg0 .clRelease .opened with inputs := [.session draw0] }.inputs = .session draw0 :: [] ∧
    (holding cfg0 .clRelease .opened).halted = false ∧ (holding cfg0 .clRelease .opened).held = true ∧
    (holding cfg0 .clRelease .opened).ph = .clRelease ∧ (holding cfg0 .clRelease .opened).closeCont = .reply .unit ∧
    { holding cfg0 .clRelease .opening with closeCont := .replyErr (.timeout .ackTimeout) }.closeCont =
      .replyErr (.timeout .ackTimeout) ∧
    { holding cfg0 .clRelease .opened with closeCont := .halt }.closeCont = .halt := by decide
theorem witness_IdleSessionWaitsAndHaltIsFinal :
    { shut with halted := true }.halted = true ∧ opened.halted = false ∧ opened.ph = .idle ∧ opened.requests = [] ∧
    { opened with inputs := [.session draw0] }.inputs = .session draw0 :: [] ∧
    { opened with inputs := [.append (bytes [0x74])] }.inputs = .append (bytes [0x74]) :: [] := by decide

/-- W3: a closed session with OPEN presented, six draws scheduled, and two acknowledges in the stream. -/
def handshake : State :=
  { shut with requests := [port 3#3], rxq := bytes [0x06, 0x06], inputs := List.replicate 6 (.session draw0) }

theorem witness_OpenHandshakeReachesOpen :
    handshake.halted = false ∧ handshake.ph = .idle ∧ handshake.st = .closed ∧ handshake.opWarn = [] ∧
    (port 3#3).op = 3#3 ∧ (port 3#3).cfg.bitrateCode ≤ 9 ∧ handshake.requests = port 3#3 :: [] ∧
    handshake.inputs = .session draw0 :: .session draw0 :: .session draw0 :: .session draw0 :: .session draw0 ::
      .session draw0 :: [] ∧
    draw0.acquire = .ok none ∧ draw0.write = .ok ∧ draw0.read = .deliver ∧
    handshake.rxq = 0x06#8 :: 0x06#8 :: [] := by decide

/-- S11: an open session with SEND presented and the acknowledge in the stream. -/
def sendReady : State :=
  { opened with requests := [port 4#3], rxq := bytes [0x06], inputs := List.replicate 3 (.session draw0) }

theorem witness_SendRoundTripAnswersOk :
    sendReady.halted = false ∧ sendReady.ph = .idle ∧ sendReady.st = .opened ∧ sendReady.held = true ∧
    sendReady.opWarn = [] ∧ (port 4#3).op = 4#3 ∧ sendReady.requests = port 4#3 :: [] ∧
    encodeFrame (port 4#3).frame = .ok line1 ∧
    sendReady.inputs = .session draw0 :: .session draw0 :: .session draw0 :: [] ∧
    draw0.write = .ok ∧ draw0.read = .deliver ∧ sendReady.rxq = 0x06#8 :: [] := by decide

/-- A RECEIVE that waits on an empty stream, and a t line that arrives. -/
def lineComing : State :=
  { holding cfg0 .rcRead .opened with
    inputs := [.append (cht :: (frameFields frame1 ++ [0x0D#8])), .session draw0] }

theorem witness_ArrivedFrameLineIsReceived :
    lineComing.halted = false ∧ lineComing.ph = .rcRead ∧ lineComing.held = true ∧ lineComing.opWarn = [] ∧
    lineComing.rxq = [] ∧ frame1.id ≤ 0xFFF ∧ frame1.length ≤ 8 ∧ frame1.payload.length = frame1.length ∧
    lineComing.inputs = .append (cht :: (frameFields frame1 ++ [0x0D#8])) :: .session draw0 :: [] ∧
    draw0.read = .deliver := by decide

/-- OPEN at a write label, whose write will fail. -/
def opening (ph : Phase) : State :=
  { holding cfg0 ph .opening with
    inputs := [.session { draw0 with write := .ioError 1 }, .session draw0, .session draw0] }

/-- Both labels. -/
theorem witness_FailedOpenEndsClosedWithItsError :
    (opening .opWriteS).halted = false ∧ (opening .opWriteS).held = true ∧ (opening .opWriteS).ph = .opWriteS ∧
    (opening .opWriteS).cfg = some cfg0 ∧ bytes [0x53, 0x37] = [0x53#8, BitVec.ofNat 8 (0x30 + cfg0.bitrateCode)] ∧
    (opening .opWriteS).inputs =
      .session { draw0 with write := .ioError 1 } :: .session draw0 :: .session draw0 :: [] ∧
    (opening .opWriteO).halted = false ∧ (opening .opWriteO).held = true ∧ (opening .opWriteO).ph = .opWriteO ∧
    (opening .opWriteO).inputs =
      .session { draw0 with write := .ioError 1 } :: .session draw0 :: .session draw0 :: [] ∧
    draw0.write = .ok := by decide

/-- R245: a frame line stands in the stream before the acknowledge. -/
def crossed : State :=
  { sending .sdAck with
    requests := [port 5#3], inputs := List.replicate 3 (.session draw0), rxq := line2 ++ cr :: 0x06#8 :: [] }

theorem witness_FrameAheadOfAckIsLost :
    crossed.halted = false ∧ crossed.held = true ∧ crossed.st = .opened ∧ crossed.ph = .sdAck ∧ crossed.opWarn = [] ∧
    crossed.inputs = .session draw0 :: .session draw0 :: .session draw0 :: [] ∧ draw0.read = .deliver ∧
    (port 5#3).op = 5#3 ∧ crossed.requests = port 5#3 :: [] ∧ line2.tail.head? ≠ some cht ∧ cr ∉ line2.tail ∧
    crossed.rxq = cht :: (line2.tail ++ cr :: 0x06#8 :: []) := by decide

/-- A SEND about to write, with one draw scheduled. -/
def writing : State := { sending .sdWrite with inputs := [.session draw0] }

/-- The invariant holds of an open session in the middle of a SEND, which takes a step. -/
theorem witness_StepKeepsTheInvariant : Inv writing ∧ ∃ t, step writing = .next t := by
  refine ⟨?_, _, rfl⟩
  constructor <;>
    simp [writing, sending, holding, shut, Phase.isClosing, Phase.isOpening, Phase.isTransfer, line1, bytes]
  · decide
  · exact ⟨frame1, by decide⟩
theorem witness_InvariantExcludesFaults : Inv writing := witness_StepKeepsTheInvariant.1
theorem witness_LogsOnlyGrow : ∃ t, step writing = .next t ∧ t.tx ≠ writing.tx := ⟨_, rfl, by decide⟩
/-- Both streams do change: a write, and an ACK read. -/
theorem witness_OnlyTheirLabelsReachTheStreams :
    (∃ t, step writing = .next t ∧ t.tx ≠ writing.tx) ∧
    (∃ t, step (receiving (bytes [0x74, 0x0D]) .deliver) = .next t ∧
      ¬ (receiving (bytes [0x74, 0x0D]) .deliver).rxq <+: t.rxq) := ⟨⟨_, rfl, by decide⟩, _, rfl, by decide⟩
theorem witness_OnlyTheFourLinesAreWritten : Inv writing ∧ ∃ t, step writing = .next t ∧ t.tx = line1 ++ [cr] :=
  ⟨witness_StepKeepsTheInvariant.1, _, rfl, by decide⟩
/-- The acquisition and the release change the ownership, and the lifecycle with it. -/
theorem witness_OnlyAcquireAndReleaseChangeOwnership :
    (∃ t, step (acquiring (.ok none)) = .next t ∧ t.held ≠ (acquiring (.ok none)).held ∧
      t.st ≠ (acquiring (.ok none)).st) ∧
    (∃ t, step { holding cfg0 .clRelease .opened with inputs := [.session draw0] } = .next t ∧ t.held ≠ true) :=
  ⟨⟨_, rfl, by decide, by decide⟩, _, rfl, by decide⟩
theorem witness_AckMismatchChangesNoSessionState :
    (sending .sdAck).draw.read ≠ .ioError ∧ (sending .sdAck).ph = .sdAck ∧
    (∃ t, exec (.sendCmd line1) { sending .sdAck with rxq := bytes [0x15] } = .next t) ∧
    (∃ u, exec (.sendCmd line1) { sending .sdAck with rxq := bytes [0x06] } = .next u) :=
  ⟨by decide, by decide, ⟨_, rfl⟩, _, rfl⟩

/-- A close sequence with its two draws scheduled. -/
def closing : State := { holding cfg0 .clWrite .opened with inputs := [.session draw0, .session draw0] }

/-- The open period whose second step ends it. -/
theorem witness_CloseLineOncePerOpenPeriod :
    heldThrough 1 closing ∧ closing.ph ≠ .clRelease ∧
    ∃ t u, runFor 1 closing = some t ∧ step t = .next u ∧ u.held = false :=
  ⟨⟨rfl, rfl⟩, by decide, _, _, rfl, rfl, rfl⟩
/-- Two different states that agree but for the debug flag. -/
theorem witness_DebugFlagIsUnobservable :
    quiet opened = quiet { opened with cfg := some { cfg0 with debug := true } } ∧
    opened ≠ { opened with cfg := some { cfg0 with debug := true } } := by decide

end Sys2Proof.Tests
end

-- ==== Proofs of 20_memory.md: the one-byte read ====
section
/-! SUPPORT. The one-byte read answer by answer (20_memory.md R55, R57), and the obligation O30 assembled from the answers. -/

namespace Sys2Proof.Machine

/-- R57: the permission to time out is a configured read timeout. -/
theorem mayTimeOut_iff (s : State) : mayTimeOut s = true ↔ ∃ c, s.cfg = some c ∧ c.readTimeout ≠ none := by
  unfold mayTimeOut
  cases s.cfg <;> simp [Option.isSome_iff_ne_none]

/-- R55: a drawn failure is the answer whatever the stream holds, and consumes nothing. -/
theorem readExact1_of_ioError {s : State} (hr : s.draw.read = .ioError) : rxReadExact1 s = (.ioError, s) := by
  simp [rxReadExact1, hr]

/-- R55: short of a failure, the first byte of the stream is delivered and removed. -/
theorem readExact1_of_cons {s : State} {b : Byte} {rest : ByteString} (hr : s.draw.read ≠ .ioError)
    (hq : s.rxq = b :: rest) : rxReadExact1 s = (.byte b, { s with rxq := rest }) := by
  cases h : s.draw.read <;> simp_all [rxReadExact1]

/-- R55: on an empty stream a delivery waits for the environment. -/
theorem readExact1_of_nil_deliver {s : State} (hr : s.draw.read = .deliver) (hq : s.rxq = []) :
    rxReadExact1 s = (.blocked, s) := by
  simp [rxReadExact1, hr, hq]

/-- R55, R57: on an empty stream a drawn timeout is the answer where the configuration permits one. -/
theorem readExact1_of_nil_timeout {s : State} {lost : Nat} (hr : s.draw.read = .timeout lost) (hq : s.rxq = [])
    (hm : mayTimeOut s = true) : rxReadExact1 s = (.timeout, s) := by
  simp [rxReadExact1, hr, hq, hm]

/-- R55: the answers to a read where a byte stands in the stream. -/
theorem readExact1_cons_cases {s : State} {b : Byte} {rest : ByteString} (hq : s.rxq = b :: rest) :
    rxReadExact1 s = (.byte b, { s with rxq := rest }) ∨ rxReadExact1 s = (.ioError, s) := by
  by_cases hr : s.draw.read = .ioError
  · exact .inr (readExact1_of_ioError hr)
  · exact .inl (readExact1_of_cons hr hq)

/-- R55, R57: the answers to a read on an empty stream. -/
theorem readExact1_nil_cases {s : State} (hq : s.rxq = []) :
    rxReadExact1 s = (.blocked, s) ∨ rxReadExact1 s = (.ioError, s) ∨
      (rxReadExact1 s = (.timeout, s) ∧ ∃ c, s.cfg = some c ∧ c.readTimeout ≠ none) := by
  obtain ⟨-, h⟩ | ⟨b, rest, hne, -⟩ | ⟨-, hm, h⟩ | ⟨-, h⟩ := readExact1_cases s
  · exact .inr (.inl h)
  · simp [hq] at hne
  · exact .inr (.inr ⟨h, (mayTimeOut_iff s).1 hm⟩)
  · exact .inl h

/-- Settles O30: each law is the case lemma for its stream, and each answer is reached by drawing it. -/
theorem byteReadObeysItsLaw : Obligations.ByteReadObeysItsLaw := by
  intro s
  constructor
  · intro b rest hq
    refine ⟨readExact1_cons_cases hq, ⟨{ s.draw with read := .deliver }, ?_⟩, { s.draw with read := .ioError }, ?_⟩
    · exact readExact1_of_cons (by simp) hq
    · exact readExact1_of_ioError rfl
  · intro hq
    refine ⟨readExact1_nil_cases hq, ⟨{ s.draw with read := .deliver }, ?_⟩, ⟨{ s.draw with read := .ioError }, ?_⟩,
      fun c hc ht => ⟨{ s.draw with read := .timeout 0 }, ?_⟩⟩
    · exact readExact1_of_nil_deliver rfl hq
    · exact readExact1_of_ioError rfl
    · exact readExact1_of_nil_timeout rfl hq ((mayTimeOut_iff _).2 ⟨c, hc, ht⟩)

end Sys2Proof.Machine
end

-- ==== Proofs of 30_encoding.md: the command lines and the ACK test ====
section
/-! SUPPORT. The wire bytes of the command lines that carry no frame (30_encoding.md R75 to R77, 40_codec.md R113 to
R115) and the ACK test (R116), and the obligation O10 assembled from them. -/

namespace Sys2Proof.Machine

/-- R75, R113: the bitrate line on the wire, whatever its code. -/
theorem encode_wireS_bytes (code : Nat) :
    encode (.wireS code) = .wire [0x53#8, BitVec.ofNat 8 (0x30 + code), 0x0D#8] := rfl

/-- R76, R114: the open line on the wire. -/
theorem encode_wireO_bytes : encode .wireO = .wire [0x4F#8, 0x0D#8] := rfl

/-- R77, R115: the close line on the wire. -/
theorem encode_wireC_bytes : encode .wireC = .wire [0x43#8, 0x0D#8] := rfl

/-- R116: the acknowledge is one byte value, and every other byte is a mismatch. -/
theorem isAck_iff (b : Byte) : isAck b = true ↔ b = 0x06#8 := beq_iff_eq

/-- Settles O10: each line's bytes on the wire by its lemma, and the lines without CR by their definitions; code 7 is
the general line at 7. -/
theorem commandLinesAndAckAreTheirBytes : Obligations.CommandLinesAndAckAreTheirBytes := by
  refine ⟨fun code _ => ⟨?sLine, encode_wireS_bytes code⟩, ?oLine, encode_wireO_bytes, ?cLine, encode_wireC_bytes,
    encode_wireS_bytes 7, isAck_iff⟩
  case sLine => simp [sLine, chS]
  case oLine => simp [oLine, chO]
  case cLine => simp [cLine, chC]

end Sys2Proof.Machine
end

-- ==== Proofs of 40_codec.md: the hex digits ====
section
/-! SUPPORT. The hex primitives (40_codec.md R100) by the ranges of a digit and by the bit fields of a byte and of an
identifier, and the obligation O1 assembled from them. -/

namespace Sys2Proof.Machine

/-- R100: the character of a digit 0 to 9. -/
theorem hexChar_of_lt_ten {d : Nat} (h : d < 10) : hexChar d = BitVec.ofNat 8 (0x30 + d) := if_pos h

/-- R100: the character of a digit from 10 on. -/
theorem hexChar_of_ten_le {d : Nat} (h : 10 ≤ d) : hexChar d = BitVec.ofNat 8 (0x41 + (d - 10)) :=
  if_neg (Nat.not_lt.2 h)

/-- The link between R100's bit fields and the model's arithmetic: four bits of a word are a quotient modulo 16. -/
theorem toNat_extractLsb'_four {w : Nat} (v : BitVec w) (start : Nat) :
    (v.extractLsb' start 4).toNat = v.toNat / 2 ^ start % 16 := by
  rw [BitVec.extractLsb'_toNat, Nat.shiftRight_eq_div_pow]

/-- R100: the digits of a byte are its bits 7:4 and 3:0; nothing stands above bit 7, so the high digit needs no mask. -/
theorem hex2_eq_bitFields (b : Byte) :
    hex2 b = [hexChar (b.extractLsb' 4 4).toNat, hexChar (b.extractLsb' 0 4).toNat] := by
  have high : b.toNat / 16 % 16 = b.toNat / 16 := Nat.mod_eq_of_lt (by have := b.isLt; omega)
  simp only [hex2, toNat_extractLsb'_four, Nat.reducePow, Nat.div_one, high]

/-- R100: the digits of an identifier are its bits 11:8, 7:4 and 3:0. -/
theorem hex3_toNat_eq_bitFields (v : BitVec 12) :
    hex3 v.toNat =
      [hexChar (v.extractLsb' 8 4).toNat, hexChar (v.extractLsb' 4 4).toNat, hexChar (v.extractLsb' 0 4).toNat] := by
  simp only [hex3, toNat_extractLsb'_four, Nat.reducePow, Nat.div_one]

/-- Settles O1: the two ranges of a digit, then a byte and an identifier by their bit fields. -/
theorem hexDigitsAreTheBitFieldsHighFirst : Obligations.HexDigitsAreTheBitFieldsHighFirst :=
  ⟨fun _ h => hexChar_of_lt_ten h, fun _ h _ => hexChar_of_ten_le h, hex2_eq_bitFields, hex3_toNat_eq_bitFields⟩

end Sys2Proof.Machine
end

-- ==== Proofs of 40_codec.md: what the codec accepts ====
section
/-! SUPPORT. The digits the codec takes (40_codec.md R101), what a decoded line looks like, and the obligations on Encode
and Decode (R103 to R112, R117) assembled from these. -/

namespace Sys2Proof.Machine

open Statements (upper)

/-- R101: the three ranges of a hex digit. -/
theorem isHex_iff (lower : Bool) (c : Byte) : isHex lower c = true ↔
    (0x30 ≤ c.toNat ∧ c.toNat ≤ 0x39) ∨ (0x41 ≤ c.toNat ∧ c.toNat ≤ 0x46) ∨
      (0x61 ≤ c.toNat ∧ c.toNat ≤ 0x66 ∧ lower = true) := by
  simp [isHex, and_assoc]

/-- Settles O2: the ranges, and the branch of the value that each range selects. -/
theorem hexDigitsAcceptedAndTheirValues : Obligations.HexDigitsAcceptedAndTheirValues := by
  refine fun lower c => ⟨isHex_iff lower c, fun _ _ => ?_, fun _ _ => ?_, fun _ _ => ?_⟩
  · exact if_pos ‹_›
  · rw [hexVal, if_neg (by omega), if_pos ‹_›]
  · rw [hexVal, if_neg (by omega), if_neg (by omega)]

/-- R101: a digit's value has four bits, and the digit is the character of its value up to letter case. -/
theorem upper_of_isHex {lower : Bool} {c : Byte} (h : isHex lower c = true) :
    upper c = hexChar (hexVal c) ∧ hexVal c < 16 := by
  revert c; cases lower <;> decide

/-- R101: where lowercase is refused, a digit is already uppercase. -/
theorem upper_of_strict {c : Byte} (h : isHex false c = true) : upper c = c := by
  rw [(upper_of_isHex h).1, (hexChar_hexVal c h).1]

/-- R100: the digits of an identifier are read back from its value. -/
theorem hex3_of_digits {a b c : Nat} (ha : a < 16) (hb : b < 16) (hc : c < 16) :
    hex3 (256 * a + 16 * b + c) = [hexChar a, hexChar b, hexChar c] := by
  simp only [hex3, List.cons.injEq, and_true]
  refine ⟨?_, ?_, ?_⟩ <;> congr 1 <;> omega

/-- R100: the digits of a byte are read back from its value. -/
theorem hex2_of_digits {a b : Nat} (ha : a < 16) (hb : b < 16) :
    hex2 (BitVec.ofNat 8 (16 * a + b)) = [hexChar a, hexChar b] := by
  have hlt : (16 * a + b) % 2 ^ 8 = 16 * a + b := Nat.mod_eq_of_lt (by omega)
  simp only [hex2, BitVec.toNat_ofNat, hlt, List.cons.injEq, and_true]
  constructor <;> congr 1 <;> omega

/-- R100: the digits of an identifier of twelve bits give its value. -/
theorem digits_of_id {v : Nat} (h : v ≤ 0xFFF) : 256 * (v / 256 % 16) + 16 * (v / 16 % 16) + v % 16 = v := by omega

/-- R107: the data field, where it is read: digits only, and up to case the two digits of each payload byte. -/
theorem decodeData_some {lower : Bool} {data p : ByteString} (h : decodeData lower data = some p) :
    (∀ c ∈ data, isHex lower c = true) ∧ data.map upper = p.flatMap hex2 := by
  induction data using decodeData.induct lower generalizing p with
  | case1 hi lo rest hd ih =>
    simp only [decodeData, hd, if_true, Option.map_eq_some_iff] at h
    obtain ⟨q, hq, rfl⟩ := h
    obtain ⟨hall, hmap⟩ := ih hq
    simp only [Bool.and_eq_true] at hd
    obtain ⟨hhi, hlo⟩ := hd
    obtain ⟨uhi, vhi⟩ := upper_of_isHex hhi
    obtain ⟨ulo, vlo⟩ := upper_of_isHex hlo
    exact ⟨by simpa [hhi, hlo] using hall, by simp [hex2_of_digits vhi vlo, uhi, ulo, hmap]⟩
  | case2 hi lo rest hd => simp [decodeData, hd] at h
  | case3 => simp_all [decodeData]
  | case4 => simp [decodeData] at h

/-- R107, R109, R110: what a decoded line is: the marker and digits that are, up to case, the fields of an untimed frame
that Encode accepts. -/
structure IsLineOf (lower : Bool) (line : ByteString) (f : CanFrame) : Prop where
  marked   : ∃ body, line = cht :: body ∧ (∀ c ∈ body, isHex lower c = true) ∧ body.map upper = frameFields f
  id_le    : f.id ≤ 0xFFF
  length_le : f.length ≤ 8
  payload_length : f.payload.length = f.length
  untimed  : f.timestamp = none

/-- R107: Decode answers a frame only for a line of that frame. -/
theorem isLineOf_of_decodeLine {lower : Bool} {line : ByteString} {f : CanFrame} (h : decodeLine lower line = .ok f) :
    IsLineOf lower line f := by
  unfold decodeLine at h
  split at h
  · cases h
  split_ifs at h with hm
  split at h
  case h_2 => cases h
  case h_1 c1 c2 c3 c4 data =>
  split_ifs at h with hid hlen hrange hshort htrail
  split at h
  · cases h
  rename_i p hp
  obtain ⟨hall, hmap⟩ := decodeData_some hp
  simp only [Bool.not_eq_true', Bool.and_eq_true, Bool.not_eq_false, Decidable.not_not] at hid hlen hm
  obtain ⟨⟨h1, h2⟩, h3⟩ := hid
  obtain ⟨u1, v1⟩ := upper_of_isHex h1
  obtain ⟨u2, v2⟩ := upper_of_isHex h2
  obtain ⟨u3, v3⟩ := upper_of_isHex h3
  obtain ⟨u4, v4⟩ := upper_of_isHex hlen
  have hdata : data.length = 2 * p.length := by
    rw [← length_flatMap_hex2, ← hmap, List.length_map]
  simp only [List.length_cons, Config.lenMax] at hshort htrail hrange
  cases h
  refine ⟨⟨_, by rw [hm], ?_, ?_⟩, ?_, ?_, ?_, rfl⟩
  · simpa [h1, h2, h3, hlen] using hall
  · simp [frameFields, hex3_of_digits v1 v2 v3, u1, u2, u3, u4, hmap]
  all_goals simp only; omega

/-- R107, R110: under a legal header only the length of the data field and its digits are left to check. -/
theorem decodeLine_of_header {lower : Bool} {c1 c2 c3 c4 : Byte} (h1 : isHex lower c1 = true) (h2 : isHex lower c2 = true)
    (h3 : isHex lower c3 = true) (h4 : isHex lower c4 = true) (h8 : hexVal c4 ≤ 8) (data : ByteString) :
    decodeLine lower (cht :: c1 :: c2 :: c3 :: c4 :: data) =
      if data.length < 2 * hexVal c4 then .error (.decoding .short)
      else if 2 * hexVal c4 < data.length then .error (.decoding .trailing)
      else (decodeData lower data).elim (.error (.decoding .badDataHex)) fun payload =>
        .ok { id := 256 * hexVal c1 + 16 * hexVal c2 + hexVal c3, length := hexVal c4, payload := payload,
              timestamp := none } := by
  have hlen : (cht :: c1 :: c2 :: c3 :: c4 :: data).length = 5 + data.length := by simp only [List.length_cons]; omega
  simp only [decodeLine, hlen, h1, h2, h3, h4, Nat.add_lt_add_iff_left, Config.lenMax, if_neg (Nat.not_lt.2 h8)]
  cases decodeData lower data <;> rfl

/-- R111: Decode reads back the fields of a frame, whatever letters it accepts. -/
theorem decodeLine_frameFields (lower : Bool) {f : CanFrame} (hid : f.id ≤ 0xFFF) (hlen : f.length ≤ 8)
    (hp : f.payload.length = f.length) : decodeLine lower (cht :: frameFields f) = .ok { f with timestamp := none } := by
  obtain ⟨h1, v1, -⟩ := hexChar_facts lower (f.id / 256 % 16) (by omega)
  obtain ⟨h2, v2, -⟩ := hexChar_facts lower (f.id / 16 % 16) (by omega)
  obtain ⟨h3, v3, -⟩ := hexChar_facts lower (f.id % 16) (by omega)
  obtain ⟨h4, v4, -⟩ := hexChar_facts lower f.length (by omega)
  have hdata : (f.payload.flatMap hex2).length = 2 * f.length := by rw [length_flatMap_hex2, hp]
  have heq := decodeLine_of_header h1 h2 h3 h4 (v4.trans_le hlen) (f.payload.flatMap hex2)
  rwa [v4, hdata, if_neg (Nat.lt_irrefl _), if_neg (Nat.lt_irrefl _), decodeData_flatMap, v1, v2, v3,
    digits_of_id hid] at heq

/-- R107: where lowercase is refused, Decode answers a frame only for its fields in uppercase. -/
theorem IsLineOf.eq_of_strict {line : ByteString} {f : CanFrame} (h : IsLineOf false line f) :
    line = cht :: frameFields f := by
  obtain ⟨body, rfl, hhex, hmap⟩ := h.marked
  rw [← hmap, List.map_congr_left (fun c hc => upper_of_strict (hhex c hc)), List.map_id']

/-- R107: up to letter case a line is settled by its frame. -/
theorem IsLineOf.map_upper {lower : Bool} {line : ByteString} {f : CanFrame} (h : IsLineOf lower line f) :
    line.map upper = cht :: frameFields f := by
  obtain ⟨body, rfl, -, hmap⟩ := h.marked
  rw [List.map_cons, hmap]
  rfl

/-- R112: the length of the fields. -/
theorem length_frameFields (f : CanFrame) : (frameFields f).length = 4 + 2 * f.payload.length := by
  simp only [frameFields, hex3, List.length_append, List.length_cons, List.length_nil, length_flatMap_hex2]
  omega

/-- R112: the fields are written in uppercase digits. -/
theorem frameFields_alphabet {f : CanFrame} (hlen : f.length ≤ 8) {c : Byte} (hc : c ∈ frameFields f) :
    (0x30 ≤ c.toNat ∧ c.toNat ≤ 0x39) ∨ (0x41 ≤ c.toNat ∧ c.toNat ≤ 0x46) := by
  have digit : ∃ d < 16, c = hexChar d := by
    simp only [frameFields, hex3, hex2, List.mem_append, List.mem_cons, List.mem_flatMap, List.not_mem_nil, or_false] at hc
    obtain (rfl | rfl | rfl) | rfl | ⟨b, -, rfl | rfl⟩ := hc
    all_goals exact ⟨_, by omega, rfl⟩
  obtain ⟨d, hd, rfl⟩ := digit
  exact (hexChar_facts true d hd).2.2

/-- R112: a line of fields holds no CR. -/
theorem cr_not_mem_line {f : CanFrame} (hlen : f.length ≤ 8) {m : Byte} (hm : cr ≠ m) : cr ∉ m :: frameFields f := by
  intro hcr
  obtain h | h := List.mem_cons.1 hcr
  · exact hm h
  · exact absurd (frameFields_alphabet hlen h) (by decide)

/-- Settles O3: Encode's three checks, each by the tests that stand before it. -/
theorem encodeAnswersLineOrFirstFailedCheck : Obligations.EncodeAnswersLineOrFirstFailedCheck := by
  refine fun f => ⟨fun hid => if_pos hid, fun hid hlen => ?_, fun hid hlen hp => ?_, fun hid hlen hp => ?_, fun _ => rfl⟩
  · rw [encodeFrame, if_neg (Nat.not_lt.2 hid), if_pos hlen]
  · rw [encodeFrame, if_neg (Nat.not_lt.2 hid), if_neg (Nat.not_lt.2 hlen), if_pos hp]
  · exact (encodeFrame_ok f _).2 ⟨hid, hlen, hp, by simp [frameFields]⟩

/-- Settles O4: an accepted line is the marker and the fields, whose length and alphabet are known; CR is in neither. -/
theorem encodedLineLengthAndAlphabet : Obligations.EncodedLineLengthAndAlphabet := by
  intro f line h
  obtain ⟨-, hlen, hp, rfl⟩ := (encodeFrame_ok f line).1 h
  have hfields := length_frameFields f
  refine ⟨?_, ?_, ?_, rfl, cr_not_mem_line hlen (by decide), fun c hc => frameFields_alphabet hlen hc⟩
  all_goals simp only [List.length_cons]; omega

/-- Settles O6: the bounds of a decoded line. -/
theorem decodedFrameIsBoundedAndUntimed : Obligations.DecodedFrameIsBoundedAndUntimed := by
  intro lower line f h
  obtain ⟨-, hid, hlen, hp, hts⟩ := isLineOf_of_decodeLine h
  exact ⟨hid, hlen, hp, hts⟩

/-- Settles O7: under a legal header the length checks come before the digits of the data field, and a line is as long
as its frame's fields. -/
theorem decodeNeverTruncatesOrPads : Obligations.DecodeNeverTruncatesOrPads := by
  intro lower c1 c2 c3 c4 data h1 h2 h3 h4 h8
  refine ⟨fun hlt => ?_, fun hlt => ?_, fun f h => ?_⟩
  · rw [decodeLine_of_header h1 h2 h3 h4 h8, if_pos hlt]
  · rw [decodeLine_of_header h1 h2 h3 h4 h8, if_neg (Nat.lt_asymm hlt), if_pos hlt]
  · have hline := isLineOf_of_decodeLine h
    have hlen := congrArg List.length hline.map_upper
    have hp := hline.payload_length
    simp only [List.length_map, List.length_cons, length_frameFields] at hlen
    omega

/-- Settles O8: the line is the marker and the fields, which are read back. -/
theorem decodeOfEncodeReproducesTheFrame : Obligations.DecodeOfEncodeReproducesTheFrame :=
  fun lower f hid hlen hp =>
    ⟨_, (encodeFrame_ok f _).2 ⟨hid, hlen, hp, rfl⟩, decodeLine_frameFields lower hid hlen hp⟩

/-- R117: a line settles the frame it was encoded from, but for the timestamp, since the frame is read back. -/
theorem encodeFrame_injective {f g : CanFrame} {line : ByteString} (hf : encodeFrame f = .ok line)
    (hg : encodeFrame g = .ok line) : f.id = g.id ∧ f.length = g.length ∧ f.payload = g.payload := by
  obtain ⟨hid, hlen, hp, rfl⟩ := (encodeFrame_ok f _).1 hf
  obtain ⟨hid', hlen', hp', heq⟩ := (encodeFrame_ok g _).1 hg
  have hfg := decodeLine_frameFields true hid hlen hp
  rw [List.tail_eq_of_cons_eq heq, decodeLine_frameFields true hid' hlen' hp', Except.ok.injEq, CanFrame.mk.injEq] at hfg
  obtain ⟨h1, h2, h3, -⟩ := hfg
  exact ⟨h1.symm, h2.symm, h3.symm⟩

/-- Settles O9: encoding by reading back, decoding because a line is settled by its frame. -/
theorem codecIsInjectiveUpToLetterCase : Obligations.CodecIsInjectiveUpToLetterCase := by
  refine ⟨fun f g line => encodeFrame_injective, fun lower l m f hl hm => ?_⟩
  have ll := isLineOf_of_decodeLine hl
  have lm := isLineOf_of_decodeLine hm
  refine ⟨ll.map_upper.trans lm.map_upper.symm, ?_⟩
  rintro rfl
  exact ll.eq_of_strict.trans lm.eq_of_strict.symm

end Sys2Proof.Machine
end

-- ==== Proofs of 40_codec.md: Decode by index ====
section
/-! SUPPORT. Decode's recursion over the data field as the spec's loop by index (40_codec.md R107), and the obligation O5. -/

namespace Sys2Proof.Machine

open Statements (dataByte decodeByIndex)

/-- R107: the two digits of payload byte `k` are accepted. -/
abbrev DigitsAt (lower : Bool) (data : ByteString) (k : Nat) : Prop :=
  isHex lower (Statements.at data (2 * k)) = true ∧ isHex lower (Statements.at data (2 * k + 1)) = true

/-- R107: the payload byte that the digits at `k` give. -/
def byteAt (data : ByteString) (k : Nat) : Byte :=
  BitVec.ofNat 8 (16 * hexVal (Statements.at data (2 * k)) + hexVal (Statements.at data (2 * k + 1)))

/-- R107: the data field is the loop's payload where every pair is digits. -/
theorem decodeData_of_digits {lower : Bool} {n : Nat} {data : ByteString} (hlen : data.length = 2 * n)
    (h : ∀ k < n, DigitsAt lower data k) : decodeData lower data = some ((List.range n).map (byteAt data)) := by
  induction n generalizing data with
  | zero => rw [List.eq_nil_of_length_eq_zero hlen]; rfl
  | succ n ih =>
    match data, hlen with
    | hi :: lo :: rest, hlen =>
      have h0 : isHex lower hi = true ∧ isHex lower lo = true := h 0 (Nat.succ_pos n)
      have hrest := ih (data := rest) (by simpa [Nat.mul_add] using hlen) fun k hk => h (k + 1) (Nat.succ_lt_succ hk)
      rw [decodeData, if_pos (by simp [h0]), hrest, List.range_succ_eq_map, List.map_cons, List.map_map]
      rfl

/-- R107: the data field is refused where some pair is not digits. -/
theorem decodeData_of_not_digits {lower : Bool} {n : Nat} {data : ByteString} (hlen : data.length = 2 * n)
    (h : ∃ k < n, ¬ DigitsAt lower data k) : decodeData lower data = none := by
  induction n generalizing data with
  | zero => obtain ⟨k, hk, -⟩ := h; omega
  | succ n ih =>
    match data, hlen with
    | hi :: lo :: rest, hlen =>
      rw [decodeData]
      split_ifs with hd
      · obtain ⟨k, hk, hbad⟩ := h
        match k with
        | 0 => exact absurd (Bool.and_eq_true_iff.1 hd) hbad
        | k + 1 => rw [ih (by simpa [Nat.mul_add] using hlen) ⟨k, Nat.lt_of_succ_lt_succ hk, hbad⟩]; rfl
      · rfl

/-- R107: byte `j` of the data field stands after the marker and the four header digits. -/
theorem at_data (m c1 c2 c3 c4 : Byte) (data : ByteString) (j : Nat) :
    Statements.at (m :: c1 :: c2 :: c3 :: c4 :: data) (5 + j) = Statements.at data j := by
  rw [Nat.add_comm]; rfl

/-- R107: the loop's test and its payload, read from the data field. -/
theorem decodeByIndex_cons (lower : Bool) (m c1 c2 c3 c4 : Byte) (data : ByteString) :
    decodeByIndex lower (m :: c1 :: c2 :: c3 :: c4 :: data) =
      if m ≠ cht then .error (.framing .badMarker)
      else if ¬(isHex lower c1 = true ∧ isHex lower c2 = true ∧ isHex lower c3 = true) then .error (.decoding .badIdHex)
      else if isHex lower c4 = false then .error (.decoding .badLenHex)
      else if 8 < hexVal c4 then .error (.decoding .lenRange)
      else if data.length < 2 * hexVal c4 then .error (.decoding .short)
      else if 2 * hexVal c4 < data.length then .error (.decoding .trailing)
      else if ∃ k < hexVal c4, ¬ DigitsAt lower data k then .error (.decoding .badDataHex)
      else .ok { id := 256 * hexVal c1 + 16 * hexVal c2 + hexVal c3, length := hexVal c4,
                 payload := (List.range (hexVal c4)).map (byteAt data), timestamp := none } := by
  have hlen : (m :: c1 :: c2 :: c3 :: c4 :: data).length = 5 + data.length := by simp only [List.length_cons]; omega
  have hat (k : Nat) : Statements.at (m :: c1 :: c2 :: c3 :: c4 :: data) (6 + 2 * k) = Statements.at data (2 * k + 1) := by
    rw [← at_data m c1 c2 c3 c4 data, ← Nat.add_assoc, Nat.add_right_comm]
  have hbyte : dataByte (m :: c1 :: c2 :: c3 :: c4 :: data) = byteAt data := by
    funext k; simp only [dataByte, byteAt, at_data, hat]
  simp only [decodeByIndex, hlen, at_data, hat, hbyte, Nat.add_lt_add_iff_left]
  simp [Statements.at, DigitsAt]

/-- R107, R108: a line with all its header bytes is read as the loop reads it. -/
theorem decodeLine_eq_decodeByIndex_of_header (lower : Bool) (m c1 c2 c3 c4 : Byte) (data : ByteString) :
    decodeLine lower (m :: c1 :: c2 :: c3 :: c4 :: data) = decodeByIndex lower (m :: c1 :: c2 :: c3 :: c4 :: data) := by
  rw [decodeByIndex_cons]
  by_cases hm : m = cht
  case neg => simp [decodeLine, hm]
  subst hm
  by_cases hid : isHex lower c1 = true ∧ isHex lower c2 = true ∧ isHex lower c3 = true
  case neg => simp [decodeLine, and_assoc, hid]
  rw [if_neg (not_not.2 rfl), if_neg (not_not.2 hid)]
  split_ifs with hlen hrange hshort htrail hdigits
  · simp [decodeLine, hid, hlen]
  · simp [decodeLine, hid, hlen, hrange]
  all_goals
    obtain ⟨h1, h2, h3⟩ := hid
    rw [decodeLine_of_header h1 h2 h3 (by simpa using hlen) (Nat.not_lt.1 hrange)]
  · rw [if_pos hshort]
  · rw [if_neg hshort, if_pos htrail]
  · rw [if_neg hshort, if_neg htrail, decodeData_of_not_digits (by omega) hdigits]
    rfl
  · rw [if_neg hshort, if_neg htrail, decodeData_of_digits (n := hexVal c4) (by omega) (by simpa using hdigits)]
    rfl

/-- Settles O5: a line too short for its header fails its first two checks, and any other is read as the loop reads it. -/
theorem decodeIsTheIndexedPseudocode : Obligations.DecodeIsTheIndexedPseudocode := by
  intro lower line
  match line with
  | [] => rfl
  | m :: c1 :: c2 :: c3 :: c4 :: data => exact decodeLine_eq_decodeByIndex_of_header lower m c1 c2 c3 c4 data
  | [m] | [m, _] | [m, _, _] | [m, _, _, _] =>
    by_cases hm : m = cht <;> simp [decodeLine, decodeByIndex, Statements.at, hm]

end Sys2Proof.Machine
end

-- ==== Proofs of 30_encoding.md: words and instructions ====
section
/-! SUPPORT. The wire decoder, marker by marker (30_encoding.md R73 to R78), and the obligations O11, O12 and O13. -/

namespace Sys2Proof.Machine

/-- R73: the fields of an encodable frame are read back from its outgoing line. -/
theorem decodeTLine_frameFields {f : CanFrame} (henc : f.encodable = true) (hts : f.timestamp = none) :
    decodeTLine (frameFields f) = .ok (.wireTx f) := by
  simp only [CanFrame.encodable, Config.idEncMax, Config.lenMax, Bool.and_eq_true, decide_eq_true_eq] at henc
  obtain ⟨hid, hlen, hp⟩ := henc
  simp only [decodeTLine, decodeLine_frameFields false hid hlen hp, ← hts]

/-- R73: an outgoing line that is read is the line of a well-formed row. -/
theorem decodeTLine_ok {fields : ByteString} {i : Instr} (h : decodeTLine fields = .ok i) :
    ∃ f, i = .wireTx f ∧ fields = frameFields f ∧ f.encodable = true ∧ f.timestamp = none := by
  unfold decodeTLine at h
  split at h
  case h_2 => cases h
  case h_1 f hd =>
    cases h
    have hline := isLineOf_of_decodeLine hd
    refine ⟨f, rfl, List.tail_eq_of_cons_eq hline.eq_of_strict, ?_, hline.untimed⟩
    simpa [CanFrame.encodable] using ⟨hline.id_le, hline.length_le, hline.payload_length⟩

/-- R75: the digit of a code 0 to 9 is read back. -/
theorem decodeSLine_digit {code : Nat} (h : code ≤ 9) :
    decodeSLine [BitVec.ofNat 8 (0x30 + code)] = .ok (.wireS code) := by
  have hmod : (0x30 + code) % 2 ^ 8 = 0x30 + code := Nat.mod_eq_of_lt (by omega)
  simp only [decodeSLine, BitVec.toNat_ofNat, hmod]
  rw [if_pos (by omega), Nat.add_sub_cancel_left]

/-- R75: a bitrate line that is read has the digit of its code. -/
theorem decodeSLine_ok {fields : ByteString} {i : Instr} (h : decodeSLine fields = .ok i) :
    ∃ code ≤ 9, i = .wireS code ∧ chS :: fields = sLine code := by
  unfold decodeSLine at h
  split at h
  case h_2 => cases h
  case h_1 d =>
    split_ifs at h with hd
    cases h
    refine ⟨_, by omega, rfl, ?_⟩
    rw [sLine, Nat.add_sub_cancel' hd.1, BitVec.ofNat_toNat, BitVec.setWidth_eq]

/-- R74: a line that Decode accepts is read from the wire as it stands. -/
theorem decodeWire_incoming {lower : Bool} {line : ByteString} {f : CanFrame} (h : decodeLine lower line = .ok f) :
    decodeWire lower (line ++ [cr]) = .ok (.wireRx line) := by
  obtain ⟨body, rfl, -, -⟩ := (isLineOf_of_decodeLine h).marked
  rw [List.cons_append, decodeWire_cons lower cht body (by decide), decodeWireLine, if_neg (by decide), if_pos rfl]
  simp only [h]

/-- R79: bytes on the wire that decode are the acknowledge, or a line by its marker with its CR. -/
theorem decodeWire_ok {lower : Bool} {bytes : ByteString} {i : Instr} (h : decodeWire lower bytes = .ok i) :
    (bytes = [ackByte] ∧ i = .wireAck) ∨
      ∃ m fields, bytes = m :: (fields ++ [cr]) ∧ decodeWireLine lower m fields = .ok i := by
  unfold decodeWire at h
  split at h
  · cases h
  · split_ifs at h with hm hrest
    · cases h
      exact .inl ⟨by rw [hm, hrest], rfl⟩
    · split at h
      · cases h
      · rename_i hstrip
        exact .inr ⟨_, _, by rw [(stripCR_some _ _).1 hstrip], h⟩

/-- R73 to R77: a line that decodes by its marker is the encoding of a well-formed instruction. -/
theorem encode_of_decodeWireLine {lower : Bool} {m : Byte} {fields : ByteString} {i : Instr}
    (h : decodeWireLine lower m fields = .ok i) : encode i = .wire (m :: (fields ++ [cr])) ∧ i.wf lower = true := by
  unfold decodeWireLine at h
  split_ifs at h with hT ht hS hO hfO hC hfC
  · obtain ⟨f, rfl, rfl, henc, hts⟩ := decodeTLine_ok h
    exact ⟨by rw [hT]; rfl, by simp [Instr.wf, henc, hts]⟩
  · split at h
    case h_2 => cases h
    case h_1 f hd => cases h; exact ⟨rfl, by simp [Instr.wf, hd, Except.toBool]⟩
  · obtain ⟨code, hcode, rfl, hline⟩ := decodeSLine_ok h
    exact ⟨by rw [encode, ← hline, hS]; rfl, by simp [Instr.wf, hcode]⟩
  · cases h; exact ⟨by rw [hO, hfO]; rfl, rfl⟩
  · cases h; exact ⟨by rw [hC, hfC]; rfl, rfl⟩

/-- Settles O12: the acknowledge by itself, and a line by its marker. -/
theorem wireBytesAreTheEncodingOfWhatTheyDecodeTo : Obligations.WireBytesAreTheEncodingOfWhatTheyDecodeTo := by
  intro lower bytes i h
  obtain ⟨rfl, rfl⟩ | ⟨m, fields, rfl, hline⟩ := decodeWire_ok h
  · exact ⟨rfl, rfl⟩
  · exact encode_of_decodeWireLine hline

/-- Settles O11: a request is told by its code, and a wire row by its marker, its fields read back. -/
theorem decodeOfEncodeIsTheInstruction : Obligations.DecodeOfEncodeIsTheInstruction := by
  intro lower i hwf
  cases i with
  | wireTx f =>
    simp only [Instr.wf, Bool.and_eq_true, Option.isNone_iff_eq_none] at hwf
    exact (decodeWire_cons lower chT _ (by decide)).trans (decodeTLine_frameFields hwf.1 hwf.2)
  | wireRx line =>
    simp only [Instr.wf] at hwf
    cases hd : decodeLine lower line with
    | error e => rw [hd] at hwf; cases hwf
    | ok f => exact decodeWire_incoming hd
  | wireS code =>
    have hcode : code ≤ 9 := by simpa [Instr.wf] using hwf
    exact (decodeWire_cons lower chS [BitVec.ofNat 8 (0x30 + code)] (by decide)).trans (decodeSLine_digit hcode)
  | _ => rfl

/-- Settles O13: each word is decoded by running the decoder on it. -/
theorem wordsFromTheTablesDecode : Obligations.WordsFromTheTablesDecode := by
  refine ⟨?_, ?_, ?_, ?_, ?_, ?_, ?_, ?_, ?_, ?_⟩ <;> decide

end Sys2Proof.Machine
end

-- ==== Proofs of 41_session.md: requests and the teardown input ====
section
/-! SUPPORT. Acceptance of a request by an idle session (41_session.md R140), the teardown input (R150), and the
obligations on what one request does. -/

namespace Sys2Proof.Machine

/-- R140: an idle session takes every request. -/
theorem accept_idle {s : State} (hn : s.halted = false) (hp : s.ph = .idle) (next : State) :
    accept s next = .next next := by
  rw [accept, if_neg (by simp [hn]), if_pos hp]

/-- R141: a success answered while idle leaves the label as it is. -/
theorem respondOk_idle {s : State} (hp : s.ph = .idle) (v : Value) :
    respondOk v s = { s with resp := some (.ok v s.opWarn), opWarn := [] } := by
  cases s; cases hp; rfl

/-- R141: an error answered while idle leaves the label as it is. -/
theorem respondErr_idle {s : State} (hp : s.ph = .idle) (e : Error) :
    respondErr e s = { s with resp := some (.err e s.opWarn), opWarn := [] } := by
  cases s; cases hp; rfl

/-- Settles O14: the codec's answer is the response of the acceptance step. -/
theorem codecRequestsAnswerAtOnce : Obligations.CodecRequestsAnswerAtOnce := by
  refine fun s hn hp => ⟨fun f line h => ?_, fun f r h => ?_, fun l f h => ?_, fun l e h => ?_⟩
  · simp only [exec, execEncode, h, accept_idle hn hp, respondOk_idle hp]
  · simp only [exec, execEncode, h, accept_idle hn hp, respondErr_idle hp]
  · simp only [exec, execDecode, h, accept_idle hn hp, respondOk_idle hp]
  · simp only [exec, execDecode, h, accept_idle hn hp, respondErr_idle hp]

/-- R26: a configuration is well formed where its code is a digit. -/
theorem wf_iff (c : AdapterConfig) : c.wf = true ↔ c.bitrateCode ≤ 9 := decide_eq_true_iff

/-- R142: OPEN in Closed goes to OpAcquire with its operand. -/
theorem exec_openReq_closed {c : AdapterConfig} {s : State} (hcode : c.bitrateCode ≤ 9) (hn : s.halted = false)
    (hp : s.ph = .idle) (hst : s.st = .closed) :
    exec (.openReq c) s = .next { s with openReq := some c, ph := .opAcquire } := by
  rw [exec, execOpenReq, if_pos ((wf_iff c).2 hcode), accept_idle hn hp, if_pos hst]

/-- Settles O15: the configuration is checked first, then the port, then the lifecycle. -/
theorem openIsAcceptedOnlyInClosed : Obligations.OpenIsAcceptedOnlyInClosed := by
  refine fun c s => ⟨fun hcode => ?_, exec_openReq_closed, fun hcode hn hp hst => ?_⟩
  · exact if_neg (mt (wf_iff c).1 (Nat.not_le.2 hcode))
  · rw [exec, execOpenReq, if_pos ((wf_iff c).2 hcode), accept_idle hn hp, if_neg hst, respondErr_idle hp]

/-- R147: SEND in Open of a frame that Encode accepts goes to the write label with its line. -/
theorem exec_send_opened {f : CanFrame} {line : ByteString} {s : State} (hn : s.halted = false) (hp : s.ph = .idle)
    (hst : s.st = .opened) (h : encodeFrame f = .ok line) :
    exec (.send f) s = .next { s with lineBuf := line, ph := .sdWrite } := by
  simp only [exec, execSend, accept_idle hn hp, if_pos hst, h]

/-- R148: RECEIVE in Open goes to the read label. -/
theorem exec_receive_opened {s : State} (hn : s.halted = false) (hp : s.ph = .idle) (hst : s.st = .opened) :
    exec .receive s = .next { s with ph := .rcRead } := by
  rw [exec, execReceive, accept_idle hn hp, if_pos hst]

/-- Settles O16: the lifecycle check passes, and Encode decides. -/
theorem transfersInOpenGoToTheirLabels : Obligations.TransfersInOpenGoToTheirLabels := by
  refine fun s hn hp hst => ⟨fun f line => exec_send_opened hn hp hst, fun f r h => ?_, exec_receive_opened hn hp hst⟩
  simp only [exec, execSend, accept_idle hn hp, if_pos hst, h, respondErr_idle hp]

/-- Settles O18: the lifecycle check comes before the frame is read. -/
theorem transfersOutsideOpenAreStateErrors : Obligations.TransfersOutsideOpenAreStateErrors := by
  refine fun s hn hp hst => ⟨fun f => ?_, ?_⟩
  · rw [exec, execSend, accept_idle hn hp, if_neg hst, respondErr_idle hp]
  · rw [exec, execReceive, accept_idle hn hp, if_neg hst, respondErr_idle hp]

/-- Settles O19: the lifecycle decides. -/
theorem closeStartsTheCloseSequenceOrIsANoOp : Obligations.CloseStartsTheCloseSequenceOrIsANoOp := by
  refine fun s hn hp => ⟨fun hst => ?_, fun hst => ?_⟩
  · rw [exec, execClose, accept_idle hn hp, if_pos hst, respondOk_idle hp]
  · rw [exec, execClose, accept_idle hn hp, if_neg hst]

/-- Settles O20: both arms are the refusal by name. -/
theorem reservedCodesAreRefused : Obligations.ReservedCodesAreRefused := fun _ => ⟨rfl, rfl⟩

/-- R84: each request stands on the port as some word. -/
theorem exists_portWord {i : Instr} (h : Statements.isRequest i = true) : ∃ w, encode i = .port w ∧ decodeRequest w = i := by
  cases i with
  | teardown | sendCmd | wireTx | wireRx | wireS | wireO | wireC | wireAck => cases h
  | _ => exact ⟨_, rfl, rfl⟩

/-- Settles O21: a request stands on the port as a word, and a word is taken only while idle. -/
theorem requestsAreAcceptedOnlyWhileIdle : Obligations.RequestsAreAcceptedOnlyWhileIdle := by
  intro i s t hi h
  obtain ⟨w, -, rfl⟩ := exists_portWord hi
  obtain ⟨hp, hn, -⟩ := request_cases h
  exact ⟨hp, hn⟩

/-- R150: in the close sequence teardown only changes what follows it. -/
theorem tearDown_closing {s : State} (h : s.ph = .clWrite ∨ s.ph = .clRelease) :
    tearDown s = { s with closeCont := .halt } := by
  rcases h with h | h <;> simp only [tearDown, h]

/-- R150: elsewhere teardown halts a closed session and starts the close sequence of any other. -/
theorem tearDown_not_closing {s : State} (hw : s.ph ≠ .clWrite) (hr : s.ph ≠ .clRelease) :
    tearDown s = if s.st = .closed then halt s else { s with opWarn := [], closeCont := .halt, ph := .clWrite } := by
  unfold tearDown
  split
  · exact absurd ‹_› hw
  · exact absurd ‹_› hr
  · rfl

/-- R150: teardown is taken while not halted. -/
theorem exec_teardown {s : State} (hn : s.halted = false) : exec .teardown s = .next (tearDown s) :=
  if_neg (by simp [hn])

/-- Settles O22: the close sequence, a closed session, and any other. -/
theorem teardownClosesOrHalts : Obligations.TeardownClosesOrHalts := by
  refine fun s => ⟨fun hh => if_pos hh, fun hn hp => ?_, fun hn hw hr hst => ?_, fun hn hw hr hst => ?_⟩
  · rw [exec_teardown hn, tearDown_closing hp]
  · rw [exec_teardown hn, tearDown_not_closing hw hr, if_pos hst, halt]
  · rw [exec_teardown hn, tearDown_not_closing hw hr, if_neg hst]

/-- Settles O23: each request is the acceptance of one of a few updates, and each update has the frame. -/
theorem requestsLeaveTheRestUnchanged : Obligations.RequestsLeaveTheRestUnchanged := by
  refine fun s t => ⟨fun f h => ?_, fun l h => ?_, fun h => ?_, fun c h => ?_, fun f h => ?_, fun h => ?_, fun h => ?_⟩
  · obtain ⟨-, -, rfl⟩ := accept_next h
    split <;> rfl
  · obtain ⟨-, -, rfl⟩ := accept_next h
    split <;> rfl
  · obtain ⟨-, -, rfl⟩ := accept_next h
    split <;> rfl
  · rw [exec, execOpenReq] at h
    split_ifs at h
    all_goals obtain ⟨-, -, rfl⟩ := accept_next h; rfl
  · rw [exec, execSend] at h
    obtain ⟨-, -, rfl⟩ := accept_next h
    split
    · split <;> rfl
    · rfl
  · obtain ⟨-, -, rfl⟩ := accept_next h
    split <;> rfl
  · rw [exec, execTeardown] at h
    split_ifs at h
    cases h
    obtain h | h | h := tearDown_cases s
    · rw [h]
    · rw [h]; rfl
    · rw [h]

end Sys2Proof.Machine
end

-- ==== Proofs of 60_exceptions.md: the response codes ====
section
/-! SUPPORT. The error that a pair of codes names (60_exceptions.md R200, R201), and the obligation O17. -/

namespace Sys2Proof.Machine

/-- R200, R201: the error that a kind code and a sub-reason code name. -/
def Error.ofCodes : Nat → Nat → Option Error
  | 1, 1 => some (.encoding .idRange)
  | 1, 2 => some (.encoding .lenRange)
  | 1, 3 => some (.encoding .lenMismatch)
  | 2, 1 => some (.decoding .short)
  | 2, 2 => some (.decoding .badIdHex)
  | 2, 3 => some (.decoding .badLenHex)
  | 2, 4 => some (.decoding .lenRange)
  | 2, 5 => some (.decoding .trailing)
  | 2, 6 => some (.decoding .badDataHex)
  | 3, 1 => some (.framing .badMarker)
  | 3, 2 => some (.framing .noTerminator)
  | 4, 1 => some (.state .notClosed)
  | 4, 2 => some (.state .notOpen)
  | 5, 1 => some (.transport .acquireFailed)
  | 5, 2 => some (.transport .writeFailed)
  | 5, 3 => some (.transport .readFailed)
  | 6, 1 => some (.timeout .readTimeout)
  | 6, 2 => some (.timeout .ackTimeout)
  | _, _ => none

/-- R200, R201: an error is read back from its two codes. -/
theorem Error.ofCodes_codes (e : Error) : Error.ofCodes e.kindCode e.subCode = some e := by
  cases e with
  | _ r => cases r <;> rfl

/-- Settles O17: the tables are read off the definitions, and two errors with the same codes are read back as one. -/
theorem responseCodesAreTheTables : Obligations.ResponseCodesAreTheTables := by
  refine ⟨fun _ _ => ⟨rfl, rfl⟩, fun _ _ => ⟨rfl, rfl⟩, fun _ => rfl, fun _ => rfl, fun _ => rfl, fun _ => rfl,
    fun _ => rfl, fun _ => rfl, rfl, rfl, rfl, rfl, rfl, rfl, rfl, fun e e' hk hs => ?_⟩
  rw [← Option.some_inj, ← e.ofCodes_codes, ← e'.ofCodes_codes, hk, hs]

end Sys2Proof.Machine
end

-- ==== Proofs of 41_session.md: sendCommand ====
section
/-! SUPPORT. sendCommand label by label and answer by answer (41_session.md R145, R146), and the obligations on it. -/

namespace Sys2Proof.Machine

open Statements (atAck succeeded)

/-- R145: the command in flight runs its label, with the handle held (R24). -/
theorem exec_sendCmd {text : ByteString} {s : State} (hn : s.halted = false) (hc : commandText s = some text) :
    exec (.sendCmd text) s = withHandle s (commandLabel text s) := by
  rw [exec, execSendCmd, if_neg (by simp [hn]), if_pos hc]

/-- R145: with the handle held the label is the step. -/
theorem exec_sendCmd_held {text : ByteString} {s : State} (hn : s.halted = false) (hh : s.held = true)
    (hc : commandText s = some text) : exec (.sendCmd text) s = .next (commandLabel text s) := by
  rw [exec_sendCmd hn hc, withHandle, if_pos hh]

/-- R145: sendCommand takes a step only as the command in flight, and the step is the label's. -/
theorem sendCmd_next {text : ByteString} {s t : State} (h : exec (.sendCmd text) s = .next t) :
    s.halted = false ∧ commandText s = some text ∧ s.held = true ∧ t = commandLabel text s := by
  simp only [exec, execSendCmd] at h
  split_ifs at h with hn hc
  obtain ⟨hh, ht⟩ := withHandle_next h
  exact ⟨by simpa using hn, hc, hh, ht⟩

/-- R145: the three write labels. -/
theorem writes_iff (ph : Phase) : ph.writes = true ↔ ph = .opWriteS ∨ ph = .opWriteO ∨ ph = .sdWrite := by
  cases ph <;> decide

/-- R145: an ACK label writes nothing. -/
theorem writes_of_atAck {s : State} (h : atAck s) : s.ph.writes = false := by
  rcases h with h | h | h <;> rw [h] <;> rfl

/-- R145: a command completes as the statements say. -/
theorem commandDone_eq_succeeded (s : State) : commandDone s = succeeded s := by
  unfold commandDone succeeded
  cases s.ph <;> rfl

/-- R147: a failed command of SEND is answered. -/
theorem commandFail_transfer {s : State} (h : s.ph = .sdWrite ∨ s.ph = .sdAck) (e : Error) :
    commandFail e s = respondErr e s := by
  rcases h with h | h <;> simp only [commandFail, h]

/-- R143: a failed command of OPEN starts the close sequence. -/
theorem commandFail_opening {s : State} (hw : s.ph ≠ .sdWrite) (ha : s.ph ≠ .sdAck) (e : Error) :
    commandFail e s = openFail e s := by
  unfold commandFail
  split
  · exact absurd ‹_› hw
  · exact absurd ‹_› ha
  · rfl

/-- R54, R145: a write label whose write succeeds. -/
theorem commandLabel_wrote {s : State} (text : ByteString) (hw : s.ph.writes = true) (hd : s.draw.write = .ok) :
    commandLabel text s = { s with tx := s.tx ++ (text ++ [cr]), ph := s.ph.afterWrite } := by
  rw [commandLabel, if_pos hw, writeLabel, txWrite, hd]

/-- R54, R145: a write label whose write fails after `sent` bytes. -/
theorem commandLabel_writeFailed {s : State} {sent : Nat} (text : ByteString) (hw : s.ph.writes = true)
    (hd : s.draw.write = .ioError sent) :
    commandLabel text s =
      commandFail (.transport .writeFailed) { s with tx := s.tx ++ (text ++ [cr]).take sent } := by
  rw [commandLabel, if_pos hw, writeLabel, txWrite, hd]

/-- R145: at an ACK label the command goes on as its read answers. -/
theorem commandLabel_of_not_writes {s : State} (text : ByteString) (hw : s.ph.writes = false) :
    commandLabel text s = ackLabel text s := if_neg (by simp [hw])

/-- R145: an ACK label whose read delivers a byte. -/
theorem commandLabel_byte {s : State} {b : Byte} {rest : ByteString} (text : ByteString) (hw : s.ph.writes = false)
    (hr : s.draw.read ≠ .ioError) (hq : s.rxq = b :: rest) :
    commandLabel text s =
      commandDone (if isAck b then { s with rxq := rest } else warn text (some b) { s with rxq := rest }) := by
  rw [commandLabel_of_not_writes text hw, ackLabel, readExact1_of_cons hr hq]

/-- Settles O24: the label after a write by the label of the write. -/
theorem commandWriteAppendsTextAndCR : Obligations.CommandWriteAppendsTextAndCR := by
  intro text s hn hh hd hc
  have wrote (hw : s.ph.writes = true) :
      exec (.sendCmd text) s = .next { s with tx := s.tx ++ text ++ [cr], ph := s.ph.afterWrite } := by
    rw [exec_sendCmd_held hn hh hc, commandLabel_wrote text hw hd, List.append_assoc]
  refine ⟨fun hp => ?_, fun hp => ?_, fun hp => ?_⟩
  all_goals rw [wrote (by rw [hp]; rfl), hp]; rfl

/-- R143: a failed write of OPEN starts the close sequence that answers it. -/
theorem exec_sendCmd_openWriteFailed {text : ByteString} {sent : Nat} {s : State} (hn : s.halted = false)
    (hh : s.held = true) (hd : s.draw.write = .ioError sent) (hc : commandText s = some text)
    (hp : s.ph = .opWriteS ∨ s.ph = .opWriteO) :
    exec (.sendCmd text) s = .next { s with
      tx := s.tx ++ (text ++ [cr]).take sent, closeCont := .replyErr (.transport .writeFailed), ph := .clWrite } := by
  have hw : s.ph.writes = true := by rcases hp with hp | hp <;> rw [hp] <;> rfl
  have hne : s.ph ≠ .sdWrite ∧ s.ph ≠ .sdAck := by rcases hp with hp | hp <;> rw [hp] <;> decide
  rw [exec_sendCmd_held hn hh hc, commandLabel_writeFailed text hw hd,
    commandFail_opening (s := { s with tx := s.tx ++ (text ++ [cr]).take sent }) hne.1 hne.2]
  rfl

/-- Settles O25: the failure goes to the caller of the command. -/
theorem failedWriteFailsTheCommand : Obligations.FailedWriteFailsTheCommand := by
  intro text sent s hn hh hd hc
  refine ⟨fun hp => ?_, exec_sendCmd_openWriteFailed hn hh hd hc⟩
  rw [exec_sendCmd_held hn hh hc, commandLabel_writeFailed text (by rw [hp]; rfl) hd,
    commandFail_transfer (s := { s with tx := s.tx ++ (text ++ [cr]).take sent }) (.inl hp)]
  rfl

/-- Settles O26: the byte is delivered, and the ACK test tells whether a warning is raised on the way. -/
theorem ackReadTakesOneByteAndCompletes : Obligations.AckReadTakesOneByteAndCompletes := by
  intro text b rest s hn hh hr hc ha hq
  rw [exec_sendCmd_held hn hh hc, commandLabel_byte text (writes_of_atAck ha) hr hq]
  refine ⟨fun hb => ?_, fun hb => ?_⟩
  · rw [if_pos ((isAck_iff b).2 hb), commandDone_eq_succeeded]
  · rw [if_neg (mt (isAck_iff b).1 hb), commandDone_eq_succeeded]
    rfl

/-- Settles O27: the timeout is drawn and permitted, and the policy decides. -/
theorem ackTimeoutFollowsThePolicy : Obligations.AckTimeoutFollowsThePolicy := by
  intro text lost c s hn hh hr hcfg hto hc ha hq
  have htime := readExact1_of_nil_timeout hr hq ((mayTimeOut_iff s).2 ⟨c, hcfg, hto⟩)
  have hwrites := writes_of_atAck ha
  have hne : s.ph ≠ .sdWrite := fun hp => by rw [hp] at hwrites; cases hwrites
  rw [exec_sendCmd_held hn hh hc, commandLabel_of_not_writes text hwrites, ackLabel, htime]
  refine ⟨fun hpol => ?_, fun hpol hp => ?_, fun hpol hp => ?_⟩
  · simp only [hpol, commandDone_eq_succeeded]
    rfl
  · simp only [hpol, commandFail_transfer (.inr hp)]
    rfl
  · simp only [hpol, commandFail_opening hne hp]
    rfl

/-- Settles O28: the failed read goes to the caller of the command. -/
theorem failedAckReadFailsTheCommand : Obligations.FailedAckReadFailsTheCommand := by
  intro text s hn hh hr hc ha
  have hwrites := writes_of_atAck ha
  have hne : s.ph ≠ .sdWrite := fun hp => by rw [hp] at hwrites; cases hwrites
  rw [exec_sendCmd_held hn hh hc, commandLabel_of_not_writes text hwrites, ackLabel, readExact1_of_ioError hr]
  refine ⟨fun hp => ?_, fun hp => ?_⟩
  · simp only [commandFail_transfer (.inr hp)]
    rfl
  · simp only [commandFail_opening hne hp]
    rfl

/-- R57: on an empty stream a read that neither fails nor may time out waits. -/
theorem readExact1_of_nil_blocked {s : State} (hr : s.draw.read ≠ .ioError) (hq : s.rxq = [])
    (hm : mayTimeOut s = false) : rxReadExact1 s = (.blocked, s) := by
  obtain ⟨hio, -⟩ | ⟨b, rest, hne, -⟩ | ⟨-, hm', -⟩ | ⟨-, h⟩ := readExact1_cases s
  · exact absurd hio hr
  · simp [hq] at hne
  · simp [hm] at hm'
  · exact h

/-- Settles O29: with no timeout configured the read on an empty stream waits. -/
theorem ackReadWithoutTimeoutWaits : Obligations.AckReadWithoutTimeoutWaits := by
  intro text c s hn hh hr hcfg hto hc ha hq
  have hm : mayTimeOut s = false := by simp [mayTimeOut, hcfg, hto]
  rw [exec_sendCmd_held hn hh hc, commandLabel_of_not_writes text (writes_of_atAck ha), ackLabel,
    readExact1_of_nil_blocked hr hq hm]
  simp only [waiting, hq, List.nil_append]

/-- Settles O32: the write label and the ACK label each have the frame. -/
theorem sendCommandLeavesTheRestUnchanged : Obligations.SendCommandLeavesTheRestUnchanged := by
  intro text s t h
  obtain ⟨-, -, -, ht⟩ := sendCmd_next h
  by_cases hw : s.ph.writes = true
  · rw [commandLabel, if_pos hw] at ht
    obtain ⟨k, hk⟩ := writeLabel_eq text s
    rw [← ht] at hk
    refine ⟨by rw [hk], fun _ => by rw [hk], fun _ => ⟨by rw [hk], by rw [hk], k, by rw [hk]⟩, fun hw' => ?_⟩
    simp [hw] at hw'
  · rw [commandLabel, if_neg hw] at ht
    obtain ⟨hframe, hst, -⟩ := ackLabel_eq text s
    rw [← ht] at hframe hst
    exact ⟨by rw [hframe], hst, fun hw' => absurd hw' hw, fun _ => by rw [hframe]⟩

/-- Settles O33: the step of sendCommand asks for the three. -/
theorem sendCommandRunsOnlyInFlight : Obligations.SendCommandRunsOnlyInFlight := by
  refine fun text s => ⟨fun t h => ?_, fun hn hc => ?_⟩
  · obtain ⟨hn, hc, hh, -⟩ := sendCmd_next h
    exact ⟨hc, hh, hn⟩
  · rw [exec, execSendCmd, if_neg (by simp [hn]), if_neg hc]

/-- R142, R147: the lifecycle after a completed command. -/
@[simp] theorem commandDone_st (s : State) : (commandDone s).st = if s.ph = .opAckO then .opened else s.st := by
  unfold commandDone; split <;> simp_all

/-- R142, R147: the label after a completed command. -/
@[simp] theorem commandDone_ph (s : State) : (commandDone s).ph = if s.ph = .opAckS then .opWriteO else .idle := by
  unfold commandDone; split <;> simp_all

@[simp] theorem commandDone_held (s : State) : (commandDone s).held = s.held := by rw [(commandDone_eq s).1]
@[simp] theorem commandDone_cfg (s : State) : (commandDone s).cfg = s.cfg := by rw [(commandDone_eq s).1]
@[simp] theorem commandDone_tx (s : State) : (commandDone s).tx = s.tx := by rw [(commandDone_eq s).1]
@[simp] theorem commandDone_rxq (s : State) : (commandDone s).rxq = s.rxq := by rw [(commandDone_eq s).1]

/-- Settles O58: the mismatch differs from the acknowledge by a warning, which none of these fields reads. -/
theorem ackMismatchChangesNoSessionState : Obligations.AckMismatchChangesNoSessionState := by
  intro text b rest s t u hr ha hq ht hu
  have hwrites := writes_of_atAck ha
  obtain ⟨-, -, -, rfl⟩ := sendCmd_next ht
  obtain ⟨-, -, -, rfl⟩ := sendCmd_next hu
  rw [commandLabel_byte text hwrites hr hq, commandLabel_byte (s := { s with rxq := 0x06#8 :: rest }) text hwrites hr rfl,
    if_pos ((isAck_iff _).2 rfl)]
  generalize hv : (if isAck b = true then _ else _) = v
  have fields : v.ph = s.ph ∧ v.st = s.st ∧ v.held = s.held ∧ v.cfg = s.cfg ∧ v.tx = s.tx ∧ v.rxq = rest := by
    rw [← hv]; split_ifs <;> exact ⟨rfl, rfl, rfl, rfl, rfl, rfl⟩
  obtain ⟨hp, hst, hh, hcfg, htx, hrest⟩ := fields
  simp +contextual [hp, hst, hh, hcfg, htx, hrest]

end Sys2Proof.Machine
end

-- ==== Proofs of 20_memory.md: the line read ====
section
/-! SUPPORT. The line read answer by answer (20_memory.md R56, R57), and the obligation O31 assembled from the answers. -/

namespace Sys2Proof.Machine

/-- R56: a drawn failure is the answer whatever the stream holds, and consumes nothing. -/
theorem readUntilCR_of_ioError {s : State} (hr : s.draw.read = .ioError) : rxReadUntilCR s = (.ioError, s) := by
  simp only [rxReadUntilCR, hr]

/-- R56: short of a failure, a line is delivered through its first CR and removed. -/
theorem readUntilCR_of_line {s : State} {line after : ByteString} (hr : s.draw.read ≠ .ioError) (hl : cr ∉ line)
    (hq : s.rxq = line ++ cr :: after) : rxReadUntilCR s = (.bytes (line ++ [cr]), { s with rxq := after }) := by
  cases h : s.draw.read <;> simp_all [rxReadUntilCR, split_line]

/-- R56: with no line in the stream a delivery waits for the environment. -/
theorem readUntilCR_of_deliver {s : State} (hr : s.draw.read = .deliver) (hq : cr ∉ s.rxq) :
    rxReadUntilCR s = (.blocked, s) := by
  simp only [rxReadUntilCR, hr, (split_none _).2 hq]

/-- R56: with no line in the stream its end gives all the bytes there are. -/
theorem readUntilCR_of_endOfStream {s : State} (hr : s.draw.read = .endOfStream) (hq : cr ∉ s.rxq) :
    rxReadUntilCR s = (.bytes s.rxq, { s with rxq := [] }) := by
  simp only [rxReadUntilCR, hr, (split_none _).2 hq]

/-- R56, R57: with no line in the stream a drawn timeout is the answer where the configuration permits one. -/
theorem readUntilCR_of_timeout {s : State} {lost : Nat} (hr : s.draw.read = .timeout lost) (hq : cr ∉ s.rxq)
    (hm : mayTimeOut s = true) : rxReadUntilCR s = (.timeout, { s with rxq := s.rxq.drop lost }) := by
  simp only [rxReadUntilCR, hr, (split_none _).2 hq, if_pos hm]

/-- R57: with no line in the stream a timeout that is not permitted waits. -/
theorem readUntilCR_of_timeout_not_permitted {s : State} {lost : Nat} (hr : s.draw.read = .timeout lost) (hq : cr ∉ s.rxq)
    (hm : mayTimeOut s = false) : rxReadUntilCR s = (.blocked, s) := by
  simp only [rxReadUntilCR, hr, (split_none _).2 hq, hm, Bool.false_eq_true, if_false]

/-- R56: the answers to a read where a line stands in the stream. -/
theorem readUntilCR_line_cases {s : State} {line after : ByteString} (hl : cr ∉ line) (hq : s.rxq = line ++ cr :: after) :
    rxReadUntilCR s = (.bytes (line ++ [cr]), { s with rxq := after }) ∨ rxReadUntilCR s = (.ioError, s) := by
  by_cases hr : s.draw.read = .ioError
  · exact .inr (readUntilCR_of_ioError hr)
  · exact .inl (readUntilCR_of_line hr hl hq)

/-- R56, R57: the answers to a read where no line stands in the stream. -/
theorem readUntilCR_no_line_cases {s : State} (hq : cr ∉ s.rxq) :
    rxReadUntilCR s = (.blocked, s) ∨ rxReadUntilCR s = (.ioError, s) ∨
      rxReadUntilCR s = (.bytes s.rxq, { s with rxq := [] }) ∨
      (∃ lost, rxReadUntilCR s = (.timeout, { s with rxq := s.rxq.drop lost }) ∧
        ∃ c, s.cfg = some c ∧ c.readTimeout ≠ none) := by
  obtain ⟨-, h⟩ | ⟨line, rest, -, hline, -⟩ | ⟨-, hm, lost, h⟩ | ⟨-, h⟩ | ⟨-, h⟩ := readUntilCR_cases s
  · exact .inr (.inl h)
  · exact absurd (by rw [hline]; simp) hq
  · exact .inr (.inr (.inr ⟨lost, h, (mayTimeOut_iff s).1 hm⟩))
  · exact .inr (.inr (.inl h))
  · exact .inl h

/-- Settles O31: each law is the case lemma for its stream, and each answer is reached by drawing it. -/
theorem lineReadObeysItsLaw : Obligations.LineReadObeysItsLaw := by
  refine fun s => ⟨fun line after hl hq => ⟨readUntilCR_line_cases hl hq, ⟨{ s.draw with read := .deliver }, ?_⟩,
    ⟨{ s.draw with read := .ioError }, ?_⟩⟩, fun hq => ⟨readUntilCR_no_line_cases hq, ⟨{ s.draw with read := .deliver }, ?_⟩,
    ⟨{ s.draw with read := .ioError }, ?_⟩, ⟨{ s.draw with read := .endOfStream }, ?_⟩,
    fun c lost hc ht => ⟨{ s.draw with read := .timeout lost }, ?_⟩⟩⟩
  · exact readUntilCR_of_line (by simp) hl hq
  · exact readUntilCR_of_ioError rfl
  · exact readUntilCR_of_deliver rfl hq
  · exact readUntilCR_of_ioError rfl
  · exact readUntilCR_of_endOfStream rfl hq
  · exact readUntilCR_of_timeout rfl hq ((mayTimeOut_iff _).2 ⟨c, hc, ht⟩)

end Sys2Proof.Machine
end

-- ==== Proofs of 30_encoding.md: the wire rows ====
section
/-! SUPPORT. An outgoing row is sendCommand's write (30_encoding.md R73 to R77, log entry 8), and the obligations on the
wire rows. -/

namespace Sys2Proof.Machine

/-- R145: the text at SEND's write label. -/
theorem commandText_sdWrite {s : State} (hp : s.ph = .sdWrite) : commandText s = some s.lineBuf := by
  rw [commandText, hp]

/-- R145: the text at the S command's write label. -/
theorem commandText_opWriteS {s : State} (hp : s.ph = .opWriteS) :
    commandText s = s.cfg.map (fun c => sLine c.bitrateCode) := by
  rw [commandText, hp]

/-- R145: the text at the O command's write label. -/
theorem commandText_opWriteO {s : State} (hp : s.ph = .opWriteO) : commandText s = some oLine := by
  rw [commandText, hp]

/-- R145: at the label that forms it, an outgoing row is sendCommand. -/
theorem writeLine_eq_sendCmd {label : Phase} {text : ByteString} {s : State} (hn : s.halted = false) (hp : s.ph = label)
    (hw : label.writes = true) (hc : commandText s = some text) : writeLine label text s = exec (.sendCmd text) s := by
  rw [exec_sendCmd hn hc, commandLabel, if_pos (by rw [hp, hw]), writeLine, if_neg (by simp [hn]), if_pos ⟨hp, hc⟩]

/-- R51: elsewhere the line is not formed. -/
theorem writeLine_not_formed {label : Phase} {text : ByteString} {s : State} (hn : s.halted = false)
    (h : ¬(s.ph = label ∧ commandText s = some text)) : writeLine label text s = .refused .lineNotFormed := by
  rw [writeLine, if_neg (by simp [hn]), if_neg h]

/-- R73: WIRE_T of a frame that Encode accepts is the write of its line. -/
theorem exec_wireTx {f : CanFrame} {line : ByteString} (h : encodeFrame f = .ok line) (s : State) :
    exec (.wireTx f) s = writeLine .sdWrite line s := by
  simp only [exec, execWireTx, h]

/-- R103: Encode accepts an encodable frame. -/
theorem encodeFrame_of_encodable {f : CanFrame} (h : f.encodable = true) : encodeFrame f = .ok (chT :: frameFields f) := by
  simp only [CanFrame.encodable, Bool.and_eq_true, decide_eq_true_eq] at h
  obtain ⟨hid, hlen, hp⟩ := h
  exact (encodeFrame_ok f _).2 ⟨hid, hlen, hp, rfl⟩

/-- R75, R113: the digits 0 to 9 give different lines. -/
theorem sLine_injective {n m : Nat} (hn : n ≤ 9) (hm : m ≤ 9) (h : sLine n = sLine m) : n = m := by
  have hdigit := congrArg BitVec.toNat (List.cons.inj (List.cons.inj h).2).1
  simp only [BitVec.toNat_ofNat] at hdigit
  omega

/-- Settles O36: at its label each row is sendCommand, and elsewhere its text is not the command in flight. -/
theorem outgoingRowsAreSendCommandsWrites : Obligations.OutgoingRowsAreSendCommandsWrites := by
  refine fun s hn => ⟨fun f line h => ⟨fun hp hl => ?_, fun hne => ?_⟩, fun f r h => ?_, fun c hp hc => ?_,
    fun c n hp hc hcode hle hne => ?_, fun n hp hc => ?_, fun n hp => ?_, fun hp => ?_, fun hp => ?_, fun hp => ?_⟩
  · rw [exec_wireTx h, writeLine_eq_sendCmd hn hp rfl (hl ▸ commandText_sdWrite hp)]
  · rw [exec_wireTx h]
    refine writeLine_not_formed hn fun ⟨hp, hc⟩ => hne ⟨hp, ?_⟩
    rwa [commandText_sdWrite hp, Option.some_inj] at hc
  · simp only [exec, execWireTx, h]
  · exact writeLine_eq_sendCmd hn hp rfl (by rw [commandText_opWriteS hp, hc]; rfl)
  · refine writeLine_not_formed hn fun ⟨_, htext⟩ => hne ?_
    rw [commandText_opWriteS hp, hc, Option.map_some, Option.some_inj] at htext
    exact (sLine_injective hcode hle htext).symm
  · exact writeLine_not_formed hn fun ⟨_, htext⟩ => by simp [commandText_opWriteS hp, hc] at htext
  · exact writeLine_not_formed hn fun h => hp h.1
  · exact writeLine_eq_sendCmd hn hp rfl (commandText_opWriteO hp)
  · exact writeLine_not_formed hn fun h => hp h.1
  · rw [exec, execWireC, if_neg (by simp [hn]), if_neg hp]

/-- R77, R149: WIRE_C at its label is the close sequence's write. -/
theorem exec_wireC {s : State} (hn : s.halted = false) (hh : s.held = true) (hp : s.ph = .clWrite) :
    exec .wireC s = .next (closeLabel s) := by
  rw [exec, execWireC, if_neg (by simp [hn]), if_pos hp, withHandle, if_pos hh]

/-- Settles O34: the rows of sendCommand by its successful write, the close line by its own. -/
theorem outgoingLinesReachTx : Obligations.OutgoingLinesReachTx := by
  intro s hn hh
  obtain ⟨hTx, -, hS, -, -, -, hO, -⟩ := outgoingRowsAreSendCommandsWrites s hn
  refine ⟨fun f line hd hp h hl => ?_, fun c hd hp hc => ?_, fun hd hp => ?_, fun hd hp => ?_, fun sent hd hp => ?_⟩
  · rw [(hTx f line h).1 hp hl]
    exact (commandWriteAppendsTextAndCR line s hn hh hd (hl ▸ commandText_sdWrite hp)).2.2 hp
  · rw [hS c hp hc, (commandWriteAppendsTextAndCR _ s hn hh hd (by rw [commandText_opWriteS hp, hc]; rfl)).1 hp,
      List.append_assoc]
    rfl
  · rw [hO hp, (commandWriteAppendsTextAndCR _ s hn hh hd (commandText_opWriteO hp)).2.1 hp, List.append_assoc]
    rfl
  · rw [exec_wireC hn hh hp, closeLabel, txWrite, hd]
    rfl
  · rw [exec_wireC hn hh hp, closeLabel, txWrite, hd]
    rfl

/-- Settles O35: the row appends its bytes, an incoming line with its CR. -/
theorem incomingBytesArriveAtTheEnd : Obligations.IncomingBytesArriveAtTheEnd := by
  refine fun s => ⟨fun line => ?_, rfl⟩
  rw [exec, execWireRx, arrive, ← List.append_assoc]
  rfl

/-- R145: an outgoing row takes a step only as the write of the command in flight. -/
theorem outgoingRow_next {i : Instr} {s t : State} (hi : i = .wireO ∨ (∃ n, i = .wireS n) ∨ ∃ f, i = .wireTx f)
    (h : exec i s = .next t) : ∃ text, commandText s = some text ∧ t = writeLabel text s := by
  have row : ∃ label text, writeLine label text s = .next t := by
    obtain rfl | ⟨n, rfl⟩ | ⟨f, rfl⟩ := hi
    · exact ⟨_, _, h⟩
    · exact ⟨_, _, h⟩
    · cases he : encodeFrame f with
      | ok line => exact ⟨_, _, (exec_wireTx he s).symm.trans h⟩
      | error r => simp [exec, execWireTx, he] at h
  obtain ⟨label, text, hrow⟩ := row
  obtain ⟨-, hc, -, -, ht⟩ := writeLine_next hrow
  exact ⟨text, hc, ht⟩

/-- Settles O37: the frames of the write label, of the close sequence's write, and of an arrival. -/
theorem wireRowsLeaveTheRestUnchanged : Obligations.WireRowsLeaveTheRestUnchanged := by
  refine fun s t => ⟨fun i hi h => ?_, fun h => ?_, fun i hi h => ?_⟩
  · obtain ⟨text, hc, ht⟩ := outgoingRow_next hi h
    obtain ⟨k, hk⟩ := writeLabel_eq text s
    rw [← ht] at hk
    exact ⟨by rw [hk], text, hc, k, by rw [hk]⟩
  · simp only [exec, execWireC] at h
    split_ifs at h
    obtain ⟨-, rfl⟩ := withHandle_next h
    obtain ⟨k, hk⟩ := close_eq s
    exact ⟨by rw [hk], k, by rw [hk]⟩
  · obtain rfl | ⟨l, rfl⟩ := hi <;> cases h <;> exact ⟨rfl, List.prefix_append _ _⟩

/-- R73 to R79: the line of a row that a text with its CR decodes to is the text. -/
theorem line_of_decodeWire {lower : Bool} {text line : ByteString} {i : Instr}
    (hd : decodeWire lower (text ++ [cr]) = .ok i) (he : encode i = .wire (line ++ [cr])) : text = line := by
  rw [(wireBytesAreTheEncodingOfWhatTheyDecodeTo _ _ _ hd).1, InstrWord.wire.injEq] at he
  exact List.append_cancel_right he

/-- Log entry 8: the row that a command label runs does what sendCommand does there. -/
theorem exec_outgoing {text : ByteString} {s : State} (hn : s.halted = false) (hc : commandText s = some text) :
    exec (outgoing text s) s = exec (.sendCmd text) s := by
  unfold outgoing
  split
  case h_1 n hp hd =>
    obtain rfl := line_of_decodeWire (line := sLine n) hd rfl
    exact writeLine_eq_sendCmd hn hp rfl hc
  case h_2 hp hd =>
    obtain rfl := line_of_decodeWire (line := oLine) hd rfl
    exact writeLine_eq_sendCmd hn hp rfl hc
  case h_3 f hp hd =>
    obtain rfl := line_of_decodeWire (line := chT :: frameFields f) hd rfl
    have hwf := (wireBytesAreTheEncodingOfWhatTheyDecodeTo _ _ _ hd).2
    simp only [Instr.wf, Bool.and_eq_true] at hwf
    rw [exec_wireTx (encodeFrame_of_encodable hwf.1)]
    exact writeLine_eq_sendCmd hn hp rfl hc
  case h_4 => rfl

end Sys2Proof.Machine
end

-- ==== Proofs of 41_session.md: one step ====
section
/-! SUPPORT. What a session step runs at each label (41_session.md R160), and the obligations on one step. -/

namespace Sys2Proof.Machine

open Statements (SessionTurn receiveAnswer)

/-- R160: the session's step in its turn. -/
theorem step_of_sessionTurn {s u : State} (hn : s.halted = false) (hu : SessionTurn s u) :
    step s = perform (sessionMove u).1 (sessionMove u).2 := by
  obtain ⟨d, rest, hi, rfl⟩ | ⟨hi, rfl⟩ := hu
  · exact step_session hn hi
  · exact step_unscheduled hn hi

/-- R160: a scheduled session step is the session's turn. -/
theorem sessionTurn_scheduled {s : State} {d : Draw} {rest : List Input} (hi : s.inputs = .session d :: rest) :
    SessionTurn s { s with inputs := rest, draw := d } := .inl ⟨d, rest, hi, rfl⟩

/-- R160: the turn latches a draw and leaves the block as it is. -/
theorem sessionTurn_frame {s u : State} (hu : SessionTurn s u) :
    u = { s with inputs := u.inputs, draw := u.draw, draws := u.draws } := by
  obtain ⟨d, rest, -, rfl⟩ | ⟨-, rfl⟩ := hu <;> rfl

section
variable {s u : State} (hn : s.halted = false) (hu : SessionTurn s u)
include hn hu

/-- R140: an idle session runs the first request. -/
theorem step_request {w : PortWord} {ws : List PortWord} (hp : s.ph = .idle) (hr : s.requests = w :: ws) :
    step s = exec (decodeRequest w) { u with requests := ws } := by
  have huph : u.ph = .idle := by rw [sessionTurn_frame hu, hp]
  have hur : u.requests = w :: ws := by rw [sessionTurn_frame hu, hr]
  rw [step_of_sessionTurn hn hu, sessionMove, huph, hur]
  rfl

/-- R160: an idle session with no request waits. -/
theorem step_idle_wait (hp : s.ph = .idle) (hr : s.requests = []) : step s = .next (waiting u) := by
  have huph : u.ph = .idle := by rw [sessionTurn_frame hu, hp]
  have hur : u.requests = [] := by rw [sessionTurn_frame hu, hr]
  rw [step_of_sessionTurn hn hu, sessionMove, huph, hur]
  rfl

/-- R145: at a label of sendCommand the step is sendCommand's, whichever row it runs as. -/
theorem step_command {text : ByteString} (hc : commandText s = some text) : step s = exec (.sendCmd text) u := by
  have hun : u.halted = false := by rw [sessionTurn_frame hu, hn]
  have huc : commandText u = some text := by rw [sessionTurn_frame hu, ← hc]; rfl
  rw [step_of_sessionTurn hn hu, sessionMove_command huc]
  exact exec_outgoing hun huc

/-- R142: the OpAcquire label, with its operand. -/
theorem step_acquire {c : AdapterConfig} (hp : s.ph = .opAcquire) (hc : s.openReq = some c) :
    step s = .next (acquireLabel c u) := by
  have huph : u.ph = .opAcquire := by rw [sessionTurn_frame hu, hp]
  have huc : u.openReq = some c := by rw [sessionTurn_frame hu, hc]
  rw [step_of_sessionTurn hn hu, sessionMove, huph]
  simp only [perform, acquireStep, huc]

/-- R148: the RcRead label. -/
theorem step_read (hh : s.held = true) (hp : s.ph = .rcRead) : step s = .next (readLabel u) := by
  have huph : u.ph = .rcRead := by rw [sessionTurn_frame hu, hp]
  have huh : u.held = true := by rw [sessionTurn_frame hu, hh]
  rw [step_of_sessionTurn hn hu, sessionMove, huph]
  exact if_pos huh

/-- R149: the ClWrite label runs WIRE_C. -/
theorem step_closeWrite (hp : s.ph = .clWrite) : step s = exec .wireC u := by
  have huph : u.ph = .clWrite := by rw [sessionTurn_frame hu, hp]
  rw [step_of_sessionTurn hn hu, sessionMove, huph]
  rfl

/-- R149: the ClRelease label. -/
theorem step_release (hh : s.held = true) (hp : s.ph = .clRelease) : step s = .next (releaseLabel u) := by
  have huph : u.ph = .clRelease := by rw [sessionTurn_frame hu, hp]
  have huh : u.held = true := by rw [sessionTurn_frame hu, hh]
  rw [step_of_sessionTurn hn hu, sessionMove, huph]
  exact if_pos huh

end

/-- R160: a scheduled arrival is the next move. -/
theorem step_append {s : State} {bytes : ByteString} {rest : List Input} (hn : s.halted = false)
    (hi : s.inputs = .append bytes :: rest) : step s = perform (arriving bytes s) { s with inputs := rest } := by
  rw [step, nextMove, if_neg (by simp [hn]), hi]

/-- R150, R160: a scheduled teardown is the next move. -/
theorem step_teardown {s : State} {rest : List Input} (hn : s.halted = false) (hi : s.inputs = .teardown :: rest) :
    step s = exec .teardown { s with inputs := rest } := by
  rw [step, nextMove, if_neg (by simp [hn]), hi]
  rfl

/-- R36, R160: whatever row the bytes are, they are appended. -/
theorem perform_arriving (bytes : ByteString) (s u : State) : perform (arriving bytes s) u = .next (arrive bytes u) := by
  unfold arriving
  split
  case h_1 line hd =>
    have henc := (wireBytesAreTheEncodingOfWhatTheyDecodeTo _ _ _ hd).1
    rw [encode, InstrWord.wire.injEq] at henc
    rw [← henc]
    rfl
  case h_2 hd =>
    have henc := (wireBytesAreTheEncodingOfWhatTheyDecodeTo _ _ _ hd).1
    rw [encode, InstrWord.wire.injEq] at henc
    rw [← henc]
    rfl
  case h_3 => rfl

/-- Settles O38: a scheduled draw and a free one are both the session's turn. -/
theorem stepRunsThePendingRequest : Obligations.StepRunsThePendingRequest := by
  refine fun s w ws hn hp hr => ⟨fun d rest hi => ?_, fun hi => ?_⟩
  · exact step_request hn (sessionTurn_scheduled hi) hp hr
  · exact step_request hn (.inr ⟨hi, rfl⟩) hp hr

/-- Settles O39: at a command label the step is sendCommand's, which is the row's at the write labels. -/
theorem stepRunsTheWireRowAtItsLabel : Obligations.StepRunsTheWireRowAtItsLabel := by
  intro s hn
  have rows (u : State) (hu : SessionTurn s u) := outgoingRowsAreSendCommandsWrites u (by rw [sessionTurn_frame hu, hn])
  refine ⟨fun u text hu hc _ => step_command hn hu hc, fun u c hu hp hc _ => ?_, fun u hu hp => ?_,
    fun u f hu hp _ henc => ?_, fun u hu hp => step_closeWrite hn hu hp, fun rest hi => step_teardown hn hi,
    fun rest bytes line hi hd => ?_, fun rest bytes hi hd => ?_⟩
  · obtain ⟨-, -, hS, -⟩ := rows u hu
    rw [step_command hn hu (by rw [commandText_opWriteS hp, hc]; rfl),
      hS c (by rw [sessionTurn_frame hu, hp]) (by rw [sessionTurn_frame hu, hc])]
  · obtain ⟨-, -, -, -, -, -, hO, -⟩ := rows u hu
    rw [step_command hn hu (commandText_opWriteO hp), hO (by rw [sessionTurn_frame hu, hp])]
  · obtain ⟨hT, -⟩ := rows u hu
    rw [step_command hn hu (commandText_sdWrite hp),
      (hT f _ henc).1 (by rw [sessionTurn_frame hu, hp]) (by rw [sessionTurn_frame hu])]
  · rw [step_append hn hi, arriving, hd]
    rfl
  · rw [step_append hn hi, arriving, hd]
    rfl

/-- R142, R53: a scheduled acquisition that succeeds. -/
theorem step_acquired {s : State} {d : Draw} {rest : List Input} {c : AdapterConfig} {found : Option ByteString}
    (hn : s.halted = false) (hi : s.inputs = .session d :: rest) (hp : s.ph = .opAcquire) (hc : s.openReq = some c)
    (hd : d.acquire = .ok found) :
    step s = .next { s with inputs := rest, draw := d, held := true, cfg := some c, st := .opening, ph := .opWriteS,
                            handle := some (handleFor c), rxq := found.getD s.rxq } := by
  rw [step_acquire hn (sessionTurn_scheduled hi) hp hc, acquireLabel, hd]

/-- Settles O40: the draw decides. -/
theorem acquireLatchesTheConfiguration : Obligations.AcquireLatchesTheConfiguration := by
  refine fun s d rest c hn hi hp hc => ⟨fun hd => ?_, fun found => step_acquired hn hi hp hc⟩
  rw [step_acquire hn (sessionTurn_scheduled hi) hp hc, acquireLabel, hd]
  rfl

/-- R148: a line with its CR is answered. -/
theorem receiveBytes_line (line : ByteString) (s : State) :
    receiveBytes (line ++ [cr]) s =
      { s with resp := some (receiveAnswer s s.draw.now line), opWarn := [], ph := .idle } := by
  simp only [receiveBytes, stripCR_append, receiveAnswer]
  cases decodeLine s.params.hexAcceptLower line <;> rfl

/-- R148, R201: bytes without a CR are no line. -/
theorem receiveBytes_unterminated {bs : ByteString} (h : cr ∉ bs) (s : State) :
    receiveBytes bs s = respondErr (.framing .noTerminator) s := by
  have hstrip : stripCR bs = none := if_neg fun hlast => h (List.mem_of_getLast? hlast)
  simp only [receiveBytes, hstrip]

/-- R148: a scheduled read of a line. -/
theorem step_readLine {s : State} {d : Draw} {rest : List Input} {line after : ByteString} (hn : s.halted = false)
    (hh : s.held = true) (hi : s.inputs = .session d :: rest) (hp : s.ph = .rcRead) (hd : d.read ≠ .ioError)
    (hl : cr ∉ line) (hq : s.rxq = line ++ cr :: after) :
    step s = .next { s with inputs := rest, draw := d, rxq := after, opWarn := [], ph := .idle,
                            resp := some (receiveAnswer s d.now line) } := by
  rw [step_read hn (sessionTurn_scheduled hi) hh hp, readLabel,
    readUntilCR_of_line (s := { s with inputs := rest, draw := d }) hd hl hq]
  simp only [receiveBytes_line]
  rfl

/-- Settles O41: a line that stands in the stream is delivered. -/
theorem receiveConsumesOneLineAndAnswers : Obligations.ReceiveConsumesOneLineAndAnswers :=
  fun _ _ _ _ _ => step_readLine

/-- Settles O42: each answer of the read, and what the label makes of it. -/
theorem receiveWithoutALine : Obligations.ReceiveWithoutALine := by
  intro s d rest hn hh hi hp
  rw [step_read hn (sessionTurn_scheduled hi) hh hp, readLabel]
  refine ⟨fun hd => ?_, fun lost hd hm hq => ?_, fun hd hq => ?_, fun hd hq => ?_, fun lost hd hm hq => ?_⟩
  · rw [readUntilCR_of_ioError (s := { s with inputs := rest, draw := d }) hd]
    rfl
  · rw [readUntilCR_of_timeout (s := { s with inputs := rest, draw := d }) hd hq hm]
    rfl
  · rw [readUntilCR_of_endOfStream (s := { s with inputs := rest, draw := d }) hd hq]
    simp only [receiveBytes_unterminated hq]
    rfl
  · rw [readUntilCR_of_deliver (s := { s with inputs := rest, draw := d }) hd hq]
    rfl
  · rw [readUntilCR_of_timeout_not_permitted (s := { s with inputs := rest, draw := d }) hd hq hm]
    rfl

/-- R143, R149: a scheduled release that ends a failed OPEN. -/
theorem step_released_err {s : State} {d : Draw} {rest : List Input} {e : Error} (hn : s.halted = false)
    (hh : s.held = true) (hi : s.inputs = .session d :: rest) (hp : s.ph = .clRelease) (hc : s.closeCont = .replyErr e) :
    step s = .next { s with inputs := rest, draw := d, held := false, cfg := none, st := .closed, handle := none,
                            resp := some (.err e s.opWarn), opWarn := [], ph := .idle } := by
  rw [step_release hn (sessionTurn_scheduled hi) hh hp]
  simp only [releaseLabel, hc]
  rfl

/-- Settles O43: what follows the sequence decides. -/
theorem releaseEndsThePeriodAndAnswers : Obligations.ReleaseEndsThePeriodAndAnswers := by
  refine fun s d rest hn hh hi hp => ⟨fun v hc => ?_, fun e => step_released_err hn hh hi hp, fun hc => ?_⟩
  all_goals
    rw [step_release hn (sessionTurn_scheduled hi) hh hp]
    simp only [releaseLabel, hc]
    rfl

/-- Settles O44: after halt, the idle wait, and an arrival as whichever row. -/
theorem idleSessionWaitsAndHaltIsFinal : Obligations.IdleSessionWaitsAndHaltIsFinal := by
  refine fun s => ⟨fun hh => ?_, fun d rest hn hp hr hi => ?_, fun bytes rest hn hi => ?_⟩
  · rw [step, nextMove, if_pos hh]
    rfl
  · exact step_idle_wait hn (sessionTurn_scheduled hi) hp hr
  · rw [step_append hn hi, perform_arriving]
    rfl

end Sys2Proof.Machine
end

-- ==== Proofs of 41_session.md: whole operations ====
section
/-! SUPPORT. Scheduled steps chained (41_session.md R160), and the obligations on whole operations. -/

namespace Sys2Proof.Machine

/-- R160: a run takes its first step first. -/
theorem runFor_of_step {s t : State} {k : Nat} {r : Option State} (h : step s = .next t) (hk : runFor k t = r) :
    runFor (k + 1) s = r := by
  simp only [runFor, h, hk]

/-- R84: code 3 carries an OPEN. -/
theorem decodeRequest_open {w : PortWord} (h : w.op = 3#3) : decodeRequest w = .openReq w.cfg := by
  simp [decodeRequest, h]

/-- R84: code 4 carries a SEND. -/
theorem decodeRequest_send {w : PortWord} (h : w.op = 4#3) : decodeRequest w = .send w.frame := by
  simp [decodeRequest, h]

/-- R84: code 5 carries a RECEIVE. -/
theorem decodeRequest_receive {w : PortWord} (h : w.op = 5#3) : decodeRequest w = .receive := by
  simp [decodeRequest, h]

/-- R145: a scheduled write that succeeds. -/
theorem step_wrote {s : State} {d : Draw} {rest : List Input} {text : ByteString} (hn : s.halted = false)
    (hh : s.held = true) (hi : s.inputs = .session d :: rest) (hc : commandText s = some text)
    (hw : s.ph.writes = true) (hd : d.write = .ok) :
    step s = .next { s with inputs := rest, draw := d, tx := s.tx ++ (text ++ [cr]), ph := s.ph.afterWrite } := by
  rw [step_command hn (sessionTurn_scheduled hi) hc, exec_sendCmd_held (s := { s with inputs := rest, draw := d }) hn hh hc,
    commandLabel_wrote (s := { s with inputs := rest, draw := d }) text hw hd]

/-- R145: a scheduled ACK read that delivers a byte. -/
theorem step_ackByte {s : State} {d : Draw} {rest : List Input} {text after : ByteString} {b : Byte}
    (hn : s.halted = false) (hh : s.held = true) (hi : s.inputs = .session d :: rest) (hc : commandText s = some text)
    (hw : s.ph.writes = false) (hd : d.read ≠ .ioError) (hq : s.rxq = b :: after) :
    step s = .next (commandDone (if isAck b then { s with inputs := rest, draw := d, rxq := after }
      else warn text (some b) { s with inputs := rest, draw := d, rxq := after })) := by
  rw [step_command hn (sessionTurn_scheduled hi) hc, exec_sendCmd_held (s := { s with inputs := rest, draw := d }) hn hh hc,
    commandLabel_byte (s := { s with inputs := rest, draw := d }) text hw hd hq]

/-- R145, R116: a scheduled ACK read that delivers the acknowledge. -/
theorem step_acknowledged {s : State} {d : Draw} {rest : List Input} {text after : ByteString} (hn : s.halted = false)
    (hh : s.held = true) (hi : s.inputs = .session d :: rest) (hc : commandText s = some text)
    (hw : s.ph.writes = false) (hd : d.read ≠ .ioError) (hq : s.rxq = 0x06#8 :: after) :
    step s = .next (commandDone { s with inputs := rest, draw := d, rxq := after }) := by
  rw [step_ackByte hn hh hi hc hw hd hq, if_pos ((isAck_iff _).2 rfl)]

/-- R149: a scheduled write of the close line that succeeds. -/
theorem step_closeWrote {s : State} {d : Draw} {rest : List Input} (hn : s.halted = false) (hh : s.held = true)
    (hi : s.inputs = .session d :: rest) (hp : s.ph = .clWrite) (hd : d.write = .ok) :
    step s = .next { s with inputs := rest, draw := d, tx := s.tx ++ (cLine ++ [cr]), ph := .clRelease } := by
  rw [step_closeWrite hn (sessionTurn_scheduled hi) hp, exec_wireC (s := { s with inputs := rest, draw := d }) hn hh hp,
    closeLabel, txWrite, hd]

/-- Settles O45: acceptance, acquisition, and the two commands, each its write and its ACK read. -/
theorem openHandshakeReachesOpen : Obligations.OpenHandshakeReachesOpen := by
  intro s w ws rest after d0 d1 d2 d3 d4 d5 hn hp hst hw hop hcode hr hi h1 h2 h3 h4 h5 hq
  have accepted : step s = .next { s with
      requests := ws, inputs := .session d1 :: .session d2 :: .session d3 :: .session d4 :: .session d5 :: rest,
      draw := d0, openReq := some w.cfg, ph := .opAcquire } := by
    rw [step_request hn (sessionTurn_scheduled hi) hp hr, decodeRequest_open hop]
    exact exec_openReq_closed hcode hn hp hst
  refine runFor_of_step accepted ?_
  refine runFor_of_step (step_acquired hn rfl rfl rfl h1) ?_
  refine runFor_of_step (step_wrote hn rfl rfl rfl rfl h2) ?_
  refine runFor_of_step (step_acknowledged hn rfl rfl rfl rfl (by simp [h3]) hq) ?_
  refine runFor_of_step (step_wrote hn rfl rfl rfl rfl h4) ?_
  refine runFor_of_step (step_acknowledged hn rfl rfl rfl rfl (by simp [h5]) rfl) ?_
  simp [runFor, commandDone, Phase.afterWrite, respondOk, handleFor, hw, sLine, oLine, chS, chO, cr]

/-- Settles O46: acceptance, the write, and the ACK read. -/
theorem sendRoundTripAnswersOk : Obligations.SendRoundTripAnswersOk := by
  intro s w ws rest line after d0 d1 d2 hn hp hst hh hw hop hr henc hi h1 h2 hq
  have accepted : step s = .next { s with
      requests := ws, inputs := .session d1 :: .session d2 :: rest, draw := d0, lineBuf := line, ph := .sdWrite } := by
    rw [step_request hn (sessionTurn_scheduled hi) hp hr, decodeRequest_send hop]
    exact exec_send_opened hn hp hst henc
  refine runFor_of_step accepted ?_
  refine runFor_of_step (step_wrote hn hh rfl rfl rfl h1) ?_
  refine runFor_of_step (step_acknowledged hn hh rfl rfl rfl (by simp [h2]) hq) ?_
  simp [runFor, commandDone, respondOk, Phase.afterWrite, hw, cr]

/-- Settles O47: the line arrives whole, and the read delivers it and answers its frame. -/
theorem arrivedFrameLineIsReceived : Obligations.ArrivedFrameLineIsReceived := by
  intro s f rest d hn hp hh hw hq hid hlen hpay hi hd
  have arrived : step s = .next { s with inputs := .session d :: rest, rxq := (cht :: frameFields f) ++ [cr] } := by
    rw [step_append hn hi, perform_arriving, arrive]
    simp [hq, cr]
  refine runFor_of_step arrived ?_
  refine runFor_of_step (step_readLine hn hh rfl hp (by simp [hd]) (cr_not_mem_line hlen (by decide)) rfl) ?_
  simp [runFor, Statements.receiveAnswer, decodeLine_frameFields _ hid hlen hpay, hw, hq]

/-- Settles O48: the failed write, the close line, and the release. -/
theorem failedOpenEndsClosedWithItsError : Obligations.FailedOpenEndsClosedWithItsError := by
  intro s rest d0 d1 d2 sent text hn hh hlabel hi h0 h1
  have hc : commandText s = some text := by
    obtain ⟨hp, c, hcfg, rfl⟩ | ⟨hp, rfl⟩ := hlabel
    · rw [commandText_opWriteS hp, hcfg]; rfl
    · exact commandText_opWriteO hp
  have failed : step s = .next { s with
      inputs := .session d1 :: .session d2 :: rest, draw := d0, tx := s.tx ++ (text ++ [cr]).take sent,
      closeCont := .replyErr (.transport .writeFailed), ph := .clWrite } := by
    rw [step_command hn (sessionTurn_scheduled hi) hc]
    exact exec_sendCmd_openWriteFailed hn hh h0 hc (hlabel.imp And.left And.left)
  refine runFor_of_step failed ?_
  refine runFor_of_step (step_closeWrote hn hh rfl rfl h1) ?_
  exact runFor_of_step (step_released_err hn hh rfl rfl rfl) rfl

/-- R107: a line that does not begin with the marker is no frame line. -/
theorem decodeLine_unmarked (lower : Bool) {line : ByteString} (h : line.head? ≠ some cht) :
    decodeLine lower line = .error (.framing .badMarker) := by
  cases line with
  | nil => rfl
  | cons m body => exact if_pos fun hm => h (by rw [hm]; rfl)

/-- Settles O49: the marker is read as a mismatching ACK, and the rest of the line is no frame line. -/
theorem frameAheadOfAckIsLost : Obligations.FrameAheadOfAckIsLost := by
  intro s d0 d1 d2 rest w ws fields after hn hh hst hp hw hi h0 h2 hop hr hhead hcr hq
  have answered : step s = .next { s with
      inputs := .session d1 :: .session d2 :: rest, draw := d0, rxq := fields ++ cr :: 0x06#8 :: after, ph := .idle,
      opWarn := [], warnLog := s.warnLog ++ [⟨s.lineBuf, some 0x74#8⟩],
      resp := some (.ok .unit [⟨s.lineBuf, some 0x74#8⟩]) } := by
    have hc : commandText s = some s.lineBuf := by rw [commandText, hp]
    rw [step_ackByte hn hh hi hc (by rw [hp]; rfl) (by simp [h0]) hq, if_neg (mt (isAck_iff _).1 (by decide))]
    simp [commandDone, hp, respondOk, warn, hw, cht]
  refine ⟨⟨_, runFor_of_step answered rfl, rfl⟩, ?_⟩
  have accepted (u : State) (hun : u.halted = false) (hup : u.ph = .idle) (hust : u.st = .opened)
      (hui : u.inputs = .session d1 :: .session d2 :: rest) (hur : u.requests = w :: ws) :
      step u = .next { u with requests := ws, inputs := .session d2 :: rest, draw := d1, ph := .rcRead } := by
    rw [step_request hun (sessionTurn_scheduled hui) hup hur, decodeRequest_receive hop]
    exact exec_receive_opened hun hup hust
  refine ⟨_, runFor_of_step answered (runFor_of_step (accepted _ hn rfl hst rfl hr)
    (runFor_of_step (step_readLine hn hh rfl rfl (by simp [h2]) hcr rfl) rfl)), ?_, rfl, hst, rfl⟩
  have hmarker : decodeLine s.params.hexAcceptLower fields = .error (.framing .badMarker) := decodeLine_unmarked _ hhead
  simp [Statements.receiveAnswer, hmarker]

end Sys2Proof.Machine
end

-- ==== Proofs of 10_state.md: the session invariant ====
section
/-! SUPPORT. The invariant (10_state.md R42) label by label, and the obligations O50 to O53. -/

namespace Sys2Proof.Machine

open Statements (SessionTurn atAck)

/-- Settles O50: the values are read off the record. -/
theorem resetLeavesTheTabledValues : Obligations.ResetLeavesTheTabledValues :=
  ⟨rfl, rfl, rfl, rfl, rfl, rfl, rfl, rfl, rfl, rfl, rfl, rfl, rfl, rfl⟩

/-- Settles O51: nothing is held, no label is reached, and every buffer is empty. -/
theorem resetMeetsTheInvariant : Obligations.ResetMeetsTheInvariant := by
  constructor <;> simp [State.reset, Phase.isClosing, Phase.isOpening, Phase.isTransfer]

/-- The part of the invariant that holds at every label: what is latched agrees with the handle (R26, R27, R36), and the
line buffer is bounded (R28). -/
abbrev Latched (s : State) : Prop :=
  s.cfg.isSome = s.held ∧ s.handle = s.cfg.map handleFor ∧ (∀ c, s.cfg = some c → c.wf = true) ∧ s.lineBuf.length ≤ 21

/-- The part of the invariant that each label asks of the session (R42, R142, R147 to R149). -/
abbrev AtLabel (s : State) : Prop :=
  match s.ph with
  | .idle => (s.held = true ↔ s.st ≠ .closed) ∧ s.st ≠ .opening ∧ s.opWarn = []
  | .opAcquire => s.held = false ∧ s.st = .closed ∧ ∃ c, s.openReq = some c ∧ c.wf = true
  | .opWriteS => s.held = true ∧ s.st = .opening
  | .opAckS => s.held = true ∧ s.st = .opening
  | .opWriteO => s.held = true ∧ s.st = .opening
  | .opAckO => s.held = true ∧ s.st = .opening
  | .sdWrite => s.held = true ∧ s.st = .opened ∧ ∃ f, encodeFrame f = .ok s.lineBuf
  | .sdAck => s.held = true ∧ s.st = .opened ∧ ∃ f, encodeFrame f = .ok s.lineBuf
  | .rcRead => s.held = true ∧ s.st = .opened
  | .clWrite => s.held = true ∧ s.st ≠ .closed
  | .clRelease => s.held = true ∧ s.st ≠ .closed

/-- R42: the invariant by label, since the guard of every other clause asks for the label alone. -/
theorem inv_iff (s : State) :
    Inv s ↔ Latched s ∧ AtLabel s ∧ (s.halted = true → s.ph = .idle ∧ s.st = .closed) := by
  constructor
  · rintro ⟨h1, h2, h3, h4, h5, h6, h7, h8, h9, h10, h11, h12, h13⟩
    refine ⟨⟨h2, h8, h9, h11⟩, ?_, h13⟩
    unfold AtLabel
    cases hp : s.ph <;> simp_all [Phase.isClosing, Phase.isOpening, Phase.isTransfer]
  · rintro ⟨⟨h2, h8, h9, h11⟩, hlabel, h13⟩
    unfold AtLabel at hlabel
    refine { cfg_iff := h2, handle_mirrors := h8, cfg_wf := h9, line_short := h11, halted_final := h13, held_iff := ?_,
             opening_only := ?_, opening_labels := ?_, transfer_open := ?_, acquire_operand := ?_, closing_held := ?_,
             idle_warnings := ?_, send_line := ?_ }
    all_goals cases hp : s.ph <;> simp_all [Phase.isClosing, Phase.isOpening, Phase.isTransfer]

/-- A running session meets the invariant where its latches and its label do. -/
theorem inv_of_running {s : State} (hl : Latched s) (ha : AtLabel s) (hn : s.halted = false) : Inv s :=
  (inv_iff s).2 ⟨hl, ha, fun hh => by simp [hn] at hh⟩

/-- The streams, the logs and the environment's registers are outside the invariant, and so are the warnings of an
operation in flight. -/
theorem inv_of_frame {s t : State} (h : Inv s) (hw : s.ph = .idle → t.opWarn = [])
    (ht : t = { s with opWarn := t.opWarn, warnLog := t.warnLog, tx := t.tx, rxq := t.rxq, requests := t.requests,
                       inputs := t.inputs, draw := t.draw, draws := t.draws }) : Inv t := by
  rw [ht]
  exact ⟨h.held_iff, h.cfg_iff, h.opening_only, h.opening_labels, h.transfer_open, h.acquire_operand, h.closing_held,
    h.handle_mirrors, h.cfg_wf, hw, h.line_short, h.send_line, h.halted_final⟩

/-- R145: a label of sendCommand that writes nothing is an ACK label. -/
theorem atAck_of_commandText {text : ByteString} {s : State} (hc : commandText s = some text) (hw : s.ph.writes = false) :
    atAck s := by
  cases hp : s.ph <;> simp_all [commandText, Phase.writes, atAck]

section
variable {s : State} (h : Inv s) (hn : s.halted = false)
include h hn

/-- R150: teardown keeps the invariant. -/
theorem inv_tearDown : Inv (tearDown s) := by
  obtain ⟨hl, ha, -⟩ := (inv_iff s).1 h
  by_cases hc : s.ph = .clWrite ∨ s.ph = .clRelease
  · rw [tearDown_closing hc]
    exact inv_of_running hl ha hn
  · rw [not_or] at hc
    rw [tearDown_not_closing hc.1 hc.2]
    have hnc : s.ph.isClosing = false := by cases hp : s.ph <;> simp_all [Phase.isClosing]
    split_ifs with hst
    · have hheld : ¬ s.held = true := fun hh => (h.held_iff hnc).1 hh hst
      exact (inv_iff _).2 ⟨hl, ⟨by simp [hheld, hst], by simp [hst], rfl⟩, fun _ => ⟨rfl, hst⟩⟩
    · exact inv_of_running hl ⟨(h.held_iff hnc).2 hst, hst⟩ hn

/-- R140: an accepted request keeps the invariant. -/
theorem inv_request {t : State} (hp : s.ph = .idle) (ht : RequestCase s t) : Inv t := by
  obtain ⟨hl, ha, -⟩ := (inv_iff s).1 h
  have hidle := ha
  rw [AtLabel, hp] at hidle
  obtain ⟨hheld, hno, hw⟩ := hidle
  cases ht with
  | ok v ht => rw [ht]; exact inv_of_running hl ⟨hheld, hno, rfl⟩ hn
  | err e ht => rw [ht]; exact inv_of_running hl ⟨hheld, hno, rfl⟩ hn
  | opens c hst hwf ht =>
    rw [ht]
    exact inv_of_running hl ⟨by simpa [hst] using hheld, hst, c, rfl, hwf⟩ hn
  | sends f line hst henc ht =>
    rw [ht]
    obtain ⟨-, hlen, hlen'⟩ := encodedLineLengthAndAlphabet f line henc
    exact inv_of_running ⟨hl.1, hl.2.1, hl.2.2.1, hlen'.1⟩ ⟨hheld.2 (by simp [hst]), hst, f, henc⟩ hn
  | receives hst ht =>
    rw [ht]
    exact inv_of_running hl ⟨hheld.2 (by simp [hst]), hst⟩ hn
  | closes hst ht =>
    rw [ht]
    exact inv_of_running hl ⟨hheld.2 hst, hst⟩ hn

/-- R142: the acquisition keeps the invariant. -/
theorem inv_acquire {c : AdapterConfig} (hp : s.ph = .opAcquire) (hc : s.openReq = some c) : Inv (acquireLabel c s) := by
  obtain ⟨hl, ha, -⟩ := (inv_iff s).1 h
  rw [AtLabel, hp] at ha
  obtain ⟨hheld, hst, c', hc', hwf⟩ := ha
  obtain rfl : c' = c := Option.some_inj.1 (hc'.symm.trans hc)
  obtain ⟨-, hfail⟩ | ⟨found, -, hok⟩ := acquire_cases c' s
  · rw [hfail]
    exact inv_of_running hl ⟨by simp [hheld, hst], by simp [hst], rfl⟩ hn
  · rw [hok]
    exact inv_of_running ⟨rfl, rfl, fun c hc => by cases hc; exact hwf, hl.2.2.2⟩ ⟨rfl, rfl⟩ hn

/-- R148: the read label keeps the invariant. -/
theorem inv_read (hp : s.ph = .rcRead) : Inv (readLabel s) := by
  obtain ⟨hl, ha, -⟩ := (inv_iff s).1 h
  rw [AtLabel, hp] at ha
  obtain ⟨hheld, hst⟩ := ha
  obtain ⟨q, v, hr⟩ | ⟨q, e, hr⟩ | hr := read_cases s
  · rw [hr]; exact inv_of_running hl ⟨by simp [hheld, hst], by simp [hst], rfl⟩ hn
  · rw [hr]; exact inv_of_running hl ⟨by simp [hheld, hst], by simp [hst], rfl⟩ hn
  · rw [hr]; exact inv_of_frame h (by simp [hp]) rfl

/-- R149: the close line keeps the invariant. -/
theorem inv_closeWrite (hp : s.ph = .clWrite) : Inv (closeLabel s) := by
  obtain ⟨hl, ha, -⟩ := (inv_iff s).1 h
  rw [AtLabel, hp] at ha
  obtain ⟨k, hk⟩ := close_eq s
  rw [hk]
  exact inv_of_running hl ha hn

omit hn in
/-- R149: the release keeps the invariant. -/
theorem inv_release : Inv (releaseLabel s) := by
  obtain ⟨⟨-, -, -, hline⟩, -, -⟩ := (inv_iff s).1 h
  have hl : Latched { s with held := false, cfg := none, st := .closed, handle := none } :=
    ⟨rfl, rfl, by simp, hline⟩
  obtain ⟨v, -, hr⟩ | ⟨e, -, hr⟩ | ⟨-, hr⟩ := release_cases s
  all_goals
    rw [hr]
    exact (inv_iff _).2 ⟨hl, ⟨by simp, by simp, rfl⟩, fun _ => ⟨rfl, rfl⟩⟩

/-- R145: a completed command keeps the invariant. -/
theorem inv_commandDone (hack : atAck s) : Inv (commandDone s) := by
  obtain ⟨hl, ha, -⟩ := (inv_iff s).1 h
  obtain hp | hp | hp := hack
  all_goals rw [AtLabel, hp] at ha
  · obtain ⟨hheld, hst⟩ := ha
    rw [commandDone, hp]
    exact inv_of_running hl ⟨hheld, hst⟩ hn
  · obtain ⟨hheld, hst⟩ := ha
    rw [commandDone, hp]
    exact inv_of_running hl ⟨by simp [hheld], by simp, rfl⟩ hn
  · obtain ⟨hheld, hst, -⟩ := ha
    rw [commandDone, hp]
    exact inv_of_running hl ⟨by simp [hheld, hst], by simp [hst], rfl⟩ hn

/-- R143, R147: a failed command keeps the invariant. -/
theorem inv_commandFail {text : ByteString} (hc : commandText s = some text) (e : Error) : Inv (commandFail e s) := by
  obtain ⟨hl, ha, -⟩ := (inv_iff s).1 h
  by_cases hp : s.ph = .sdWrite ∨ s.ph = .sdAck
  · have hsession : s.held = true ∧ s.st = .opened := by
      rcases hp with hp | hp <;> rw [AtLabel, hp] at ha <;> exact ⟨ha.1, ha.2.1⟩
    rw [commandFail_transfer hp]
    exact inv_of_running hl ⟨by simp [hsession], by simp [hsession], rfl⟩ hn
  · have hsession : s.held = true ∧ s.st ≠ .closed := by
      cases hph : s.ph <;> simp_all [commandText, AtLabel]
    rw [not_or] at hp
    rw [commandFail_opening hp.1 hp.2]
    exact inv_of_running hl hsession hn

/-- R145: a written command keeps the invariant. -/
theorem inv_afterWrite (hw : s.ph.writes = true) : Inv { s with ph := s.ph.afterWrite } := by
  obtain ⟨hl, ha, -⟩ := (inv_iff s).1 h
  obtain hp | hp | hp := (writes_iff _).1 hw
  all_goals
    rw [AtLabel, hp] at ha
    rw [hp]
    exact inv_of_running hl ha hn

/-- R145: sendCommand keeps the invariant, at its write label and at its ACK label. -/
theorem inv_commandLabel {text : ByteString} (hc : commandText s = some text) : Inv (commandLabel text s) := by
  have hni : s.ph ≠ .idle := fun hp => by simp [commandText, hp] at hc
  cases command_cases text s with
  | wrote hw ht =>
    rw [ht]
    exact inv_afterWrite (s := { s with tx := s.tx ++ (text ++ [cr]) }) (inv_of_frame h (fun hp => absurd hp hni) rfl) hn hw
  | writeFailed hw k ht =>
    rw [ht]
    exact inv_commandFail (s := { s with tx := s.tx ++ (text ++ [cr]).take k })
      (inv_of_frame h (fun hp => absurd hp hni) rfl) hn hc _
  | byte hw b rest hq ht =>
    rw [ht]
    split_ifs
    all_goals exact inv_commandDone (inv_of_frame h (fun hp => absurd hp hni) rfl) hn (atAck_of_commandText hc hw)
  | timeoutWarn hw hm ht =>
    rw [ht]
    exact inv_commandDone (inv_of_frame h (fun hp => absurd hp hni) rfl) hn (atAck_of_commandText hc hw)
  | ackFailed hw e ht => rw [ht]; exact inv_commandFail h hn hc e
  | blocked hw ht => rw [ht]; exact inv_of_frame h (fun hp => absurd hp hni) rfl

end

/-- Settles O52: each agent's move keeps the invariant, the session's label by label. -/
theorem stepKeepsTheInvariant : Obligations.StepKeepsTheInvariant := by
  intro s t h hstep
  obtain ⟨hn, hcase⟩ := step_cases hstep
  cases hcase with
  | append bytes rest hi ht =>
    rw [perform_arriving, Host.Outcome.next.injEq] at ht
    exact inv_of_frame h (fun hp => by rw [← ht]; exact h.idle_warnings hp) (by rw [← ht]; rfl)
  | teardown rest hi ht =>
    rw [ht]
    exact inv_tearDown (inv_of_frame h h.idle_warnings rfl) hn
  | session u hu hm hcase =>
    have hun : u.halted = false := by rw [hu, hn]
    have h : Inv u := inv_of_frame h (fun hp => by rw [hu]; exact h.idle_warnings hp) (by rw [hu])
    cases hcase with
    | request w ws hp hr hexec =>
      obtain ⟨-, -, hreq⟩ := request_cases hexec
      exact inv_request (s := { u with requests := ws }) (inv_of_frame h h.idle_warnings rfl) hun hp hreq
    | wait hp ht => rw [ht]; exact inv_of_frame h h.idle_warnings rfl
    | acquire c hp hc ht => rw [ht]; exact inv_acquire h hun hp hc
    | command text hc hexec =>
      rw [exec_outgoing hun hc] at hexec
      obtain ⟨-, -, -, ht⟩ := sendCmd_next hexec
      rw [ht]
      exact inv_commandLabel h hun hc
    | read hp hh ht => rw [ht]; exact inv_read h hun hp
    | closeWrite hp hh ht => rw [ht]; exact inv_closeWrite h hun hp
    | release hp hh ht => rw [ht]; exact inv_release h

/-- R160: when no arrival and no teardown is scheduled next, the session has its turn. -/
theorem exists_sessionTurn (s : State) :
    (∃ bytes rest, s.inputs = .append bytes :: rest) ∨ (∃ rest, s.inputs = .teardown :: rest) ∨ ∃ u, SessionTurn s u := by
  match hi : s.inputs with
  | .append bytes :: rest => exact .inl ⟨bytes, rest, rfl⟩
  | .teardown :: rest => exact .inr (.inl ⟨rest, rfl⟩)
  | .session d :: rest => exact .inr (.inr ⟨_, sessionTurn_scheduled hi⟩)
  | [] => exact .inr (.inr ⟨_, .inr ⟨hi, rfl⟩⟩)

/-- R140: accepting a request is no fault. -/
theorem accept_ne_fault (s next : State) (r : Fault) : accept s next ≠ .fault r := by
  unfold accept
  split_ifs <;> simp

/-- R26: accepting an OPEN, or refusing its configuration, is no fault. -/
theorem execOpenReq_ne_fault (c : AdapterConfig) (s : State) (r : Fault) : execOpenReq c s ≠ .fault r := by
  rw [execOpenReq]
  by_cases hwf : c.wf = true
  · rw [if_pos hwf]
    exact accept_ne_fault _ _ r
  · rw [if_neg hwf]
    simp

/-- R140: no request is a fault. -/
theorem request_ne_fault (w : PortWord) (s : State) (r : Fault) : exec (decodeRequest w) s ≠ .fault r := by
  unfold decodeRequest
  split_ifs
  · simp [exec, execReserved000]
  · exact accept_ne_fault _ _ r
  · exact accept_ne_fault _ _ r
  · exact execOpenReq_ne_fault w.cfg s r
  · exact accept_ne_fault _ _ r
  · exact accept_ne_fault _ _ r
  · exact accept_ne_fault _ _ r
  · simp [exec, execReserved111]

/-- R24: a session step of a state that meets the invariant is no fault, since the label has what its primitive needs. -/
theorem sessionStep_ne_fault {s u : State} (h : Inv s) (hn : s.halted = false) (hu : SessionTurn s u) (r : Fault) :
    step s ≠ .fault r := by
  obtain ⟨-, ha, -⟩ := (inv_iff s).1 h
  have command {text : ByteString} (hc : commandText s = some text) (hh : s.held = true) : step s ≠ .fault r := by
    have hun : u.halted = false := by rw [sessionTurn_frame hu, hn]
    have huh : u.held = true := by rw [sessionTurn_frame hu, hh]
    have huc : commandText u = some text := by rw [sessionTurn_frame hu, ← hc]; rfl
    rw [step_command hn hu hc, exec_sendCmd_held hun huh huc]
    simp
  have bitrate (hh : s.held = true) : ∃ c, s.cfg = some c := Option.isSome_iff_exists.1 (h.cfg_iff.trans hh)
  cases hp : s.ph with
  | idle =>
    cases hr : s.requests with
    | nil => rw [step_idle_wait hn hu hp hr]; simp
    | cons w ws => rw [step_request hn hu hp hr]; exact request_ne_fault w _ r
  | opAcquire =>
    rw [AtLabel, hp] at ha
    obtain ⟨-, -, c, hc, -⟩ := ha
    rw [step_acquire hn hu hp hc]
    simp
  | opWriteS | opAckS =>
    rw [AtLabel, hp] at ha
    obtain ⟨c, hc⟩ := bitrate ha.1
    exact command (by rw [commandText, hp, hc]; rfl) ha.1
  | opWriteO | opAckO | sdWrite | sdAck =>
    rw [AtLabel, hp] at ha
    exact command (by rw [commandText, hp]) ha.1
  | rcRead =>
    rw [AtLabel, hp] at ha
    rw [step_read hn hu ha.1 hp]
    simp
  | clWrite =>
    rw [AtLabel, hp] at ha
    rw [step_closeWrite hn hu hp, exec_wireC (by rw [sessionTurn_frame hu, hn]) (by rw [sessionTurn_frame hu, ha.1])
      (by rw [sessionTurn_frame hu, hp])]
    simp
  | clRelease =>
    rw [AtLabel, hp] at ha
    rw [step_release hn hu ha.1 hp]
    simp

/-- Settles O53: only the session's step calls a primitive. -/
theorem invariantExcludesFaults : Obligations.InvariantExcludesFaults := by
  intro s r h
  by_cases hn : s.halted = false
  case neg =>
    rw [(idleSessionWaitsAndHaltIsFinal s).1 (by simpa using hn)]
    simp
  obtain ⟨bytes, rest, hi⟩ | ⟨rest, hi⟩ | ⟨u, hu⟩ := exists_sessionTurn s
  · rw [step_append hn hi, perform_arriving]
    simp
  · rw [step_teardown hn hi, exec_teardown (s := { s with inputs := rest }) hn]
    simp
  · exact sessionStep_ne_fault h hn hu r

end Sys2Proof.Machine
end

-- ==== Proofs of 41_session.md: what any step may change ====
section
/-! SUPPORT. Every step sorted by the registers it may change (20_memory.md R51, R52; 41_session.md R149), and the
obligations on all steps and on open periods. -/

namespace Sys2Proof.Machine

open Statements (atAck)

/-- What a step may change. In each case the record names the registers that stay or are set; `hm` tells the attempts to
write the close line (R149) from the other moves, and `hr` what the case does to the last label of an open period. -/
inductive StepFrame (s t : State) : Prop where
  /-- an arrival, a teardown, a request, a wait, or a failed acquisition -/
  | plain (hm : (nextMove s).1 ≠ .run .wireC) (hq : s.rxq <+: t.rxq) (hr : t.ph = .clRelease ↔ s.ph = .clRelease)
      (ht : t = { t with st := s.st, held := s.held, cfg := s.cfg, handle := s.handle, warnLog := s.warnLog, tx := s.tx,
                         params := s.params })
  /-- a successful acquisition (R142) -/
  | acquired (hm : (nextMove s).1 ≠ .run .wireC) (hp : s.ph = .opAcquire)
      (ht : t = { t with st := .opening, held := true, cfg := s.openReq, ph := .opWriteS, warnLog := s.warnLog, tx := s.tx,
                         params := s.params })
  /-- the write label of sendCommand (R145) -/
  | wrote (hm : (nextMove s).1 ≠ .run .wireC) (hp : s.ph.writes = true) (text : ByteString) (hc : commandText s = some text)
      (k : Nat) (hr : t.ph ≠ .clRelease)
      (ht : t = { t with st := s.st, held := s.held, cfg := s.cfg, handle := s.handle, warnLog := s.warnLog, rxq := s.rxq,
                         tx := s.tx ++ (text ++ [cr]).take k, params := s.params })
  /-- an ACK read or a line read (R145, R148) -/
  | read (hm : (nextMove s).1 ≠ .run .wireC) (hp : atAck s ∨ s.ph = .rcRead) (hlog : s.warnLog <+: t.warnLog)
      (hst : t.st = s.st ∨ s.ph = .opAckO ∧ t.st = .opened) (hr : t.ph ≠ .clRelease)
      (ht : t = { t with held := s.held, cfg := s.cfg, handle := s.handle, tx := s.tx, params := s.params })
  /-- the write of the close line (R149) -/
  | closeWrote (hm : (nextMove s).1 = .run .wireC) (hp : s.ph = .clWrite) (k : Nat)
      (ht : t = { s with ph := .clRelease, tx := s.tx ++ (cLine ++ [cr]).take k, inputs := t.inputs, draw := t.draw,
                         draws := t.draws })
  /-- the release (R149) -/
  | released (hm : (nextMove s).1 ≠ .run .wireC) (hp : s.ph = .clRelease)
      (ht : t = { t with st := .closed, held := false, cfg := none, handle := none, warnLog := s.warnLog, tx := s.tx,
                         rxq := s.rxq, params := s.params })

/-- R145: a command label runs no close line. -/
theorem outgoing_ne_wireC (text : ByteString) (s : State) : outgoing text s ≠ .wireC := by
  unfold outgoing
  split <;> simp

/-- R84: no request is the close line. -/
theorem decodeRequest_ne_wireC (w : PortWord) : decodeRequest w ≠ .wireC := by
  unfold decodeRequest
  split_ifs <;> simp

/-- R145: sendCommand does not run in the close sequence. -/
theorem not_closing_of_commandText {text : ByteString} {s : State} (hc : commandText s = some text) :
    s.ph ≠ .clWrite ∧ s.ph ≠ .clRelease := by
  constructor <;> intro hp <;> simp [commandText, hp] at hc

/-- R149: the session's move is the close line exactly at ClWrite. -/
theorem sessionMove_wireC_iff (u : State) : (sessionMove u).1 = .run .wireC ↔ u.ph = .clWrite := by
  by_cases hc : ∃ text, commandText u = some text
  · obtain ⟨text, hc⟩ := hc
    rw [sessionMove_command hc]
    refine ⟨fun h => absurd (Move.run.inj h) (outgoing_ne_wireC text u), fun hp => ?_⟩
    exact absurd hp (not_closing_of_commandText hc).1
  · rw [not_exists] at hc
    have hnone : commandText u = none := Option.eq_none_iff_forall_ne_some.2 hc
    unfold sessionMove
    cases hp : u.ph with
    | idle => cases u.requests <;> simp [decodeRequest_ne_wireC]
    | _ => simp [hnone]

/-- R160: an arrival runs no close line. -/
theorem arriving_ne_wireC (bytes : ByteString) (s : State) : arriving bytes s ≠ .run .wireC := by
  unfold arriving
  split <;> simp

@[simp] theorem commandFail_st (e : Error) (s : State) : (commandFail e s).st = s.st := by rw [commandFail_eq]

/-- R143, R147: the label after a failed command. -/
theorem commandFail_ph_ne_clRelease (e : Error) (s : State) : (commandFail e s).ph ≠ .clRelease := by
  unfold commandFail
  split <;> simp

/-- R142, R147: the label after a completed command is a write label or idle. -/
theorem commandDone_ph_ne_clRelease (s : State) : (commandDone s).ph ≠ .clRelease := by
  rw [commandDone_ph]
  split_ifs <;> simp

/-- R145: sendCommand never goes on to the release. -/
theorem commandLabel_ph_ne_clRelease {text : ByteString} {s : State} (hc : commandText s = some text) :
    (commandLabel text s).ph ≠ .clRelease := by
  cases command_cases text s with
  | wrote hw ht =>
    rw [ht]
    obtain hp | hp | hp := (writes_iff _).1 hw <;> rw [hp] <;> simp [Phase.afterWrite]
  | writeFailed hw k ht => rw [ht]; exact commandFail_ph_ne_clRelease _ _
  | byte hw b rest hq ht => rw [ht]; exact commandDone_ph_ne_clRelease _
  | timeoutWarn hw hm ht => rw [ht]; exact commandDone_ph_ne_clRelease _
  | ackFailed hw e ht => rw [ht]; exact commandFail_ph_ne_clRelease _ _
  | blocked hw ht => rw [ht]; exact (not_closing_of_commandText hc).2

/-- R142: the lifecycle changes at an ACK label only where the O command completes. -/
theorem commandLabel_st_cases (text : ByteString) (s : State) :
    (commandLabel text s).st = s.st ∨ s.ph = .opAckO ∧ (commandLabel text s).st = .opened := by
  have completed (v : State) (hst : v.st = s.st) (hp : v.ph = s.ph) :
      (commandDone v).st = s.st ∨ s.ph = .opAckO ∧ (commandDone v).st = .opened := by
    by_cases hO : s.ph = .opAckO <;> simp [hst, hp, hO]
  cases command_cases text s with
  | wrote hw ht => rw [ht]; exact .inl rfl
  | writeFailed hw k ht => rw [ht]; exact .inl (commandFail_st _ _)
  | byte hw b rest hq ht => rw [ht]; split_ifs <;> exact completed _ rfl rfl
  | timeoutWarn hw hm ht => rw [ht]; exact completed _ rfl rfl
  | ackFailed hw e ht => rw [ht]; exact .inl (commandFail_st _ _)
  | blocked hw ht => rw [ht]; exact .inl rfl

/-- R145: what sendCommand may change, at its write label and at its ACK label. -/
theorem stepFrame_command {s t u : State} {text : ByteString} (hm : (nextMove s).1 ≠ .run .wireC)
    (hc : commandText s = some text) (hu : u = { s with inputs := u.inputs, draw := u.draw, draws := u.draws })
    (ht : t = commandLabel text u) : StepFrame s t := by
  obtain ⟨i, d, n, rfl⟩ : ∃ i d n, u = { s with inputs := i, draw := d, draws := n } := ⟨_, _, _, hu⟩
  have hr : t.ph ≠ .clRelease := by
    rw [ht]
    exact commandLabel_ph_ne_clRelease hc
  by_cases hw : s.ph.writes = true
  · rw [commandLabel, if_pos hw] at ht
    obtain ⟨k, hk⟩ := writeLabel_eq text { s with inputs := i, draw := d, draws := n }
    rw [← ht] at hk
    exact .wrote hm hw text hc k hr (by rw [hk])
  · rw [Bool.not_eq_true] at hw
    have hst := commandLabel_st_cases text { s with inputs := i, draw := d, draws := n }
    rw [← ht] at hst
    rw [commandLabel_of_not_writes (s := { s with inputs := i, draw := d, draws := n }) text hw] at ht
    obtain ⟨hframe, -, hlog⟩ := ackLabel_eq text { s with inputs := i, draw := d, draws := n }
    rw [← ht] at hframe hlog
    exact .read hm (.inl (atAck_of_commandText hc hw)) hlog hst hr (by rw [hframe])

/-- R150: what teardown may change. -/
theorem stepFrame_tearDown {s : State} {rest : List Input} (hm : (nextMove s).1 ≠ .run .wireC) :
    StepFrame s (tearDown { s with inputs := rest }) := by
  by_cases hc : s.ph = .clWrite ∨ s.ph = .clRelease
  · rw [tearDown_closing (s := { s with inputs := rest }) hc]
    exact .plain hm (List.prefix_refl _) Iff.rfl rfl
  · rw [not_or] at hc
    rw [tearDown_not_closing (s := { s with inputs := rest }) hc.1 hc.2]
    split_ifs
    · exact .plain hm (List.prefix_refl _) (by simp [hc.2]) rfl
    · exact .plain hm (List.prefix_refl _) (by simp [hc.2]) rfl

/-- R140: what an accepted request may change. -/
theorem stepFrame_request {s v t : State} (hm : (nextMove s).1 ≠ .run .wireC) (hp : s.ph = .idle)
    (hv : v = { s with requests := v.requests, inputs := v.inputs, draw := v.draw, draws := v.draws })
    (ht : RequestCase v t) : StepFrame s t := by
  obtain ⟨q, i, d, n, rfl⟩ : ∃ q i d n, v = { s with requests := q, inputs := i, draw := d, draws := n } := ⟨_, _, _, _, hv⟩
  obtain ⟨_, rfl⟩ | ⟨_, rfl⟩ | ⟨_, -, -, rfl⟩ | ⟨_, _, -, -, rfl⟩ | ⟨-, rfl⟩ | ⟨-, rfl⟩ := ht
  all_goals exact .plain hm (List.prefix_refl _) (by simp [hp]) rfl

/-- R160: every step is one of the cases. -/
theorem step_frame {s t : State} (hstep : step s = .next t) : StepFrame s t := by
  obtain ⟨hn, hcase⟩ := step_cases hstep
  cases hcase with
  | append bytes rest hi ht =>
    have hm : (nextMove s).1 ≠ .run .wireC := by
      rw [nextMove, if_neg (by simp [hn]), hi]
      exact arriving_ne_wireC bytes s
    rw [perform_arriving, Host.Outcome.next.injEq] at ht
    rw [← ht]
    exact .plain hm (List.prefix_append _ _) Iff.rfl rfl
  | teardown rest hi ht =>
    have hm : (nextMove s).1 ≠ .run .wireC := by
      rw [nextMove, if_neg (by simp [hn]), hi]
      simp
    rw [ht]
    exact stepFrame_tearDown hm
  | session u hu hmove hcase =>
    have hm (hp : u.ph ≠ .clWrite) : (nextMove s).1 ≠ .run .wireC := by
      rwa [hmove, Ne, sessionMove_wireC_iff]
    have hun : u.halted = false := by rw [hu, hn]
    obtain ⟨i, d, n, rfl⟩ : ∃ i d n, u = { s with inputs := i, draw := d, draws := n } := ⟨_, _, _, hu⟩
    cases hcase with
    | request w ws hp hr hexec =>
      replace hp : s.ph = .idle := hp
      obtain ⟨-, -, hreq⟩ := request_cases hexec
      exact stepFrame_request (hm (by simp [hp])) hp rfl hreq
    | wait hp ht =>
      replace hp : s.ph = .idle := hp
      rw [ht]
      exact .plain (hm (by simp [hp])) (List.prefix_append _ _) Iff.rfl rfl
    | acquire c hp hc ht =>
      replace hp : s.ph = .opAcquire := hp
      obtain ⟨-, hfail⟩ | ⟨found, -, hok⟩ := acquire_cases c { s with inputs := i, draw := d, draws := n }
      · rw [ht, hfail]
        exact .plain (hm (by simp [hp])) (List.prefix_refl _) (by simp [hp]) rfl
      · replace hc : s.openReq = some c := hc
        rw [ht, hok]
        exact .acquired (hm (by simp [hp])) hp (by rw [hc])
    | command text hc hexec =>
      rw [exec_outgoing hun hc] at hexec
      obtain ⟨-, -, -, ht⟩ := sendCmd_next hexec
      exact stepFrame_command (hm (not_closing_of_commandText hc).1) hc rfl ht
    | read hp hh ht =>
      replace hp : s.ph = .rcRead := hp
      rw [ht]
      obtain ⟨q, v, hr⟩ | ⟨q, e, hr⟩ | hr := read_cases { s with inputs := i, draw := d, draws := n }
      all_goals
        rw [hr]
        exact .read (hm (by simp [hp])) (.inr hp) (List.prefix_refl _) (.inl rfl) (by simp [hp]) rfl
    | closeWrite hp hh ht =>
      have hm := (sessionMove_wireC_iff _).2 hp
      obtain ⟨k, hk⟩ := close_eq { s with inputs := i, draw := d, draws := n }
      rw [ht, hk]
      exact .closeWrote (hmove ▸ hm) hp k rfl
    | release hp hh ht =>
      replace hp : s.ph = .clRelease := hp
      rw [ht]
      obtain ⟨v, -, hr⟩ | ⟨e, -, hr⟩ | ⟨-, hr⟩ := release_cases { s with inputs := i, draw := d, draws := n }
      all_goals
        rw [hr]
        exact .released (hm (by simp [hp])) hp rfl

/-- Settles O54: in each case the record tells what is appended, if anything; a halted session takes no step. -/
theorem logsOnlyGrow : Obligations.LogsOnlyGrow := by
  intro s t h
  have hn := (step_cases h).1
  suffices hgrow : s.tx <+: t.tx ∧ s.warnLog <+: t.warnLog ∧ t.params = s.params from
    ⟨hgrow.1, hgrow.2.1, fun hh => by simp [hn] at hh, hgrow.2.2⟩
  cases step_frame h with
  | plain _ _ _ ht => rw [ht]; exact ⟨List.prefix_refl _, List.prefix_refl _, rfl⟩
  | acquired _ _ ht => rw [ht]; exact ⟨List.prefix_refl _, List.prefix_refl _, rfl⟩
  | wrote _ _ _ _ _ _ ht => rw [ht]; exact ⟨List.prefix_append _ _, List.prefix_refl _, rfl⟩
  | read _ _ hlog _ _ ht => exact ⟨by rw [ht], hlog, by rw [ht]⟩
  | closeWrote _ _ _ ht => rw [ht]; exact ⟨List.prefix_append _ _, List.prefix_refl _, rfl⟩
  | released _ _ ht => rw [ht]; exact ⟨List.prefix_refl _, List.prefix_refl _, rfl⟩

/-- Settles O55: the two write cases change tx, the reads and the acquisition take from rxq. -/
theorem onlyTheirLabelsReachTheStreams : Obligations.OnlyTheirLabelsReachTheStreams := by
  intro s t h
  cases step_frame h with
  | plain _ hq _ ht => exact ⟨fun hne => absurd (by rw [ht]) hne, fun hne => absurd hq hne⟩
  | acquired _ hp ht => exact ⟨fun hne => absurd (by rw [ht]) hne, fun _ => by simp [hp]⟩
  | wrote _ hp _ _ _ _ ht =>
    refine ⟨fun _ => ?_, fun hne => absurd (by rw [ht]) hne⟩
    obtain hp | hp | hp := (writes_iff _).1 hp <;> simp [hp]
  | read _ hp _ _ _ ht =>
    refine ⟨fun hne => absurd (by rw [ht]) hne, fun _ => ?_⟩
    obtain (hp | hp | hp) | hp := hp <;> simp [hp]
  | closeWrote _ hp _ ht => exact ⟨fun _ => by simp [hp], fun hne => absurd (by rw [ht]) hne⟩
  | released _ _ ht => exact ⟨fun hne => absurd (by rw [ht]) hne, fun hne => absurd (by rw [ht]) hne⟩

/-- R83, R145: under the invariant a command's text is a T, an S or an O line. -/
theorem commandText_line {s : State} (h : Inv s) {text : ByteString} (hc : commandText s = some text) :
    (∃ f, encodeFrame f = .ok text) ∨ (∃ n, n ≤ 9 ∧ text = sLine n) ∨ text = oLine := by
  have bitrate (hs : s.cfg.map (fun c => sLine c.bitrateCode) = some text) : ∃ n, n ≤ 9 ∧ text = sLine n := by
    obtain ⟨c, hcfg, rfl⟩ := Option.map_eq_some_iff.1 hs
    exact ⟨c.bitrateCode, (wf_iff c).1 (h.cfg_wf c hcfg), rfl⟩
  unfold commandText at hc
  cases hp : s.ph <;> simp only [hp, reduceCtorEq, Option.some_inj] at hc
  case opWriteS | opAckS => exact .inr (.inl (bitrate hc))
  case opWriteO | opAckO => exact .inr (.inr hc.symm)
  case sdWrite => exact .inl (hc ▸ h.send_line (.inl hp))
  case sdAck => exact .inl (hc ▸ h.send_line (.inr hp))

/-- Settles O56: only the two write cases add bytes, and the invariant tells the command's text. -/
theorem onlyTheFourLinesAreWritten : Obligations.OnlyTheFourLinesAreWritten := by
  intro s t hinv h
  have nothing (htx : t.tx = s.tx) : ∃ line k, t.tx = s.tx ++ (line ++ [cr]).take k ∧
      ((∃ f, encodeFrame f = .ok line) ∨ (∃ n, n ≤ 9 ∧ line = sLine n) ∨ line = oLine ∨ line = cLine) :=
    ⟨cLine, 0, by simp [htx], by simp⟩
  cases step_frame h with
  | plain _ _ _ ht => exact nothing (by rw [ht])
  | acquired _ _ ht => exact nothing (by rw [ht])
  | wrote _ _ text hc k _ ht =>
    refine ⟨text, k, by rw [ht], ?_⟩
    obtain hT | hS | hO := commandText_line hinv hc
    · exact .inl hT
    · exact .inr (.inl hS)
    · exact .inr (.inr (.inl hO))
  | read _ _ _ _ _ ht => exact nothing (by rw [ht])
  | closeWrote _ _ k ht => exact ⟨cLine, k, by rw [ht], by simp⟩
  | released _ _ ht => exact nothing (by rw [ht])

/-- Settles O57: the other cases leave the ownership, and of them only the last ACK of OPEN changes the lifecycle. -/
theorem onlyAcquireAndReleaseChangeOwnership : Obligations.OnlyAcquireAndReleaseChangeOwnership := by
  intro s t h
  have kept {P : Prop} (hheld : t.held = s.held) (hcfg : t.cfg = s.cfg) (hhandle : t.handle = s.handle)
      (hne : t.held ≠ s.held ∨ t.cfg ≠ s.cfg ∨ t.handle ≠ s.handle) : P := by simp [hheld, hcfg, hhandle] at hne
  cases step_frame h with
  | plain _ _ _ ht => exact ⟨kept (by rw [ht]) (by rw [ht]) (by rw [ht]), fun hne => absurd (by rw [ht]) hne⟩
  | acquired _ hp ht =>
    exact ⟨fun _ => .inl ⟨hp, by rw [ht], by rw [ht], by rw [ht]⟩, fun _ => .inl ⟨hp, by rw [ht]⟩⟩
  | wrote _ _ _ _ _ _ ht => exact ⟨kept (by rw [ht]) (by rw [ht]) (by rw [ht]), fun hne => absurd (by rw [ht]) hne⟩
  | read _ _ _ hst _ ht =>
    refine ⟨kept (by rw [ht]) (by rw [ht]) (by rw [ht]), fun hne => ?_⟩
    obtain hst | hst := hst
    · exact absurd hst hne
    · exact .inr (.inl hst)
  | closeWrote _ _ _ ht => exact ⟨kept (by rw [ht]) (by rw [ht]) (by rw [ht]), fun hne => absurd (by rw [ht]) hne⟩
  | released _ hp ht =>
    exact ⟨fun _ => .inr ⟨hp, by rw [ht], by rw [ht], by rw [ht]⟩, fun _ => .inr (.inr ⟨hp, by rw [ht]⟩)⟩

end Sys2Proof.Machine
end

-- ==== Proofs of 41_session.md: the close line in an open period ====
section
/-! SUPPORT. How the attempts to write the close line balance with the last label of an open period (41_session.md R149,
R161), and the obligation O59. -/

namespace Sys2Proof.Machine

open Statements (SessionTurn)

/-- R160: in its turn the next move is the session's. -/
theorem nextMove_of_sessionTurn {s u : State} (hn : s.halted = false) (hu : SessionTurn s u) : nextMove s = sessionMove u := by
  obtain ⟨d, rest, hi, rfl⟩ | ⟨hi, rfl⟩ := hu
  · rw [nextMove, if_neg (by simp [hn]), hi]
  · change nextMove s = sessionMove (freeDrawn s)
    rw [nextMove, if_neg (by simp [hn]), hi]

/-- R149: the close line is attempted at ClWrite only. -/
theorem ph_of_nextMove_wireC {s : State} (hm : (nextMove s).1 = .run .wireC) : s.ph = .clWrite := by
  by_cases hn : s.halted = false
  case neg => simp [nextMove, hn] at hm
  obtain ⟨bytes, rest, hi⟩ | ⟨rest, hi⟩ | ⟨u, hu⟩ := exists_sessionTurn s
  · rw [nextMove, if_neg (by simp [hn]), hi] at hm
    exact absurd hm (arriving_ne_wireC bytes s)
  · rw [nextMove, if_neg (by simp [hn]), hi] at hm
    simp at hm
  · rw [nextMove_of_sessionTurn hn hu, sessionMove_wireC_iff] at hm
    rw [← hm, sessionTurn_frame hu]

/-- R149: 1 where the next step attempts to write the close line. -/
def attempt (s : State) : Nat := if (nextMove s).1 = .run .wireC then 1 else 0

/-- R149: 1 at the last label of an open period, which the close line has been attempted to reach. -/
def releasing (s : State) : Nat := if s.ph = .clRelease then 1 else 0

/-- R149: no attempt is made at the last label. -/
theorem attempt_add_releasing_le (s : State) : attempt s + releasing s ≤ 1 := by
  unfold attempt releasing
  by_cases hm : (nextMove s).1 = .run .wireC
  · simp [hm, ph_of_nextMove_wireC hm]
  · split_ifs <;> simp

/-- R149, R161: within an open period the last label is reached by an attempt, and stays. -/
theorem releasing_step {s t : State} (h : step s = .next t) (ht : t.held = true) :
    releasing t = attempt s + releasing s := by
  unfold attempt releasing
  cases step_frame h with
  | plain hm _ hr _ => simp [hm, hr]
  | acquired hm hp ht => simp [hm, hp, show t.ph = .opWriteS by rw [ht]]
  | wrote hm hp _ _ _ hr _ =>
    have hs : s.ph ≠ .clRelease := fun hs => by simp [hs, Phase.writes] at hp
    simp [hm, hr, hs]
  | read hm hp _ _ hr _ =>
    have hs : s.ph ≠ .clRelease := by obtain (hp | hp | hp) | hp := hp <;> simp [hp]
    simp [hm, hr, hs]
  | closeWrote hm hp _ ht => simp [hm, hp, show t.ph = .clRelease by rw [ht]]
  | released _ _ hrec => simp [show t.held = false by rw [hrec]] at ht

/-- R161: the handle is held at the start of a stretch of an open period. -/
theorem held_of_heldThrough {k : Nat} {s : State} (h : heldThrough k s) : s.held = true := by
  cases k with
  | zero => exact h
  | succ k => exact h.1

/-- R161: the attempts of a run, its first step's and the rest. -/
theorem closeAttempts_of_step {s t : State} (k : Nat) (h : step s = .next t) :
    closeAttempts (k + 1) s = attempt s + closeAttempts k t := by
  simp only [closeAttempts, h, attempt]

/-- R161: at most one attempt is made within an open period, and none after its last label is reached. -/
theorem closeAttempts_add_releasing_le {k : Nat} {s : State} (h : heldThrough k s) : closeAttempts k s + releasing s ≤ 1 := by
  induction k generalizing s with
  | zero => unfold closeAttempts releasing; split_ifs <;> simp
  | succ k ih =>
    cases hstep : step s with
    | next t =>
      have hk : heldThrough k t := by simpa [heldThrough, hstep] using h.2
      have hbalance := releasing_step hstep (held_of_heldThrough hk)
      have hrest := ih hk
      rw [closeAttempts_of_step k hstep]
      omega
    | fault r => simpa [closeAttempts, hstep, attempt] using attempt_add_releasing_le s
    | refused r => simpa [closeAttempts, hstep, attempt] using attempt_add_releasing_le s

/-- R161: within an open period the attempts count the arrivals at its last label. -/
theorem releasing_run {k : Nat} {s t : State} (h : heldThrough k s) (hrun : runFor k s = some t) :
    t.held = true ∧ releasing t = closeAttempts k s + releasing s := by
  induction k generalizing s with
  | zero => cases hrun; exact ⟨h, (Nat.zero_add _).symm⟩
  | succ k ih =>
    cases hstep : step s with
    | next v =>
      have hk : heldThrough k v := by simpa [heldThrough, hstep] using h.2
      obtain ⟨hheld, hrest⟩ := ih hk (by simpa [runFor, hstep] using hrun)
      have hbalance := releasing_step hstep (held_of_heldThrough hk)
      rw [closeAttempts_of_step k hstep]
      exact ⟨hheld, by omega⟩
    | fault r => simp [runFor, hstep] at hrun
    | refused r => simp [runFor, hstep] at hrun

/-- Settles O59: a period ends only by the release, at its last label, and the attempts count the arrivals there. -/
theorem closeLineOncePerOpenPeriod : Obligations.CloseLineOncePerOpenPeriod := by
  refine fun k s h => ⟨by have := closeAttempts_add_releasing_le h; omega, fun t u hp hrun hstep hu => ?_⟩
  obtain ⟨hheld, hbalance⟩ := releasing_run h hrun
  have hend : t.ph = .clRelease := by
    obtain ⟨-, hacq, -⟩ | ⟨hrel, -⟩ := (onlyAcquireAndReleaseChangeOwnership t u hstep).1 (.inl (by simp [hu, hheld]))
    · simp [hu] at hacq
    · exact hrel
  simpa [releasing, hp, hend] using hbalance.symm

end Sys2Proof.Machine
end

-- ==== Proofs of 60_exceptions.md: the debug flag ====
section
/-! SUPPORT. Taking the debug flags out commutes with every operation and so with every step (60_exceptions.md R214, decision
D24), and the obligation O60. -/

namespace Sys2Proof.Machine

/-- R214: an instruction with the debug flag of its configuration off. -/
def quietInstr : Instr → Instr
  | .openReq c => .openReq (quietConfig c)
  | i => i

/-- R214: a move with the debug flag of its instruction off. -/
def quietMove : Move → Move
  | .run i => .run (quietInstr i)
  | m => m

/-! The registers that `quiet` leaves, and those in which it turns a flag off. -/

@[simp] theorem quiet_st (s : State) : (quiet s).st = s.st := rfl
@[simp] theorem quiet_ph (s : State) : (quiet s).ph = s.ph := rfl
@[simp] theorem quiet_held (s : State) : (quiet s).held = s.held := rfl
@[simp] theorem quiet_halted (s : State) : (quiet s).halted = s.halted := rfl
@[simp] theorem quiet_lineBuf (s : State) : (quiet s).lineBuf = s.lineBuf := rfl
@[simp] theorem quiet_closeCont (s : State) : (quiet s).closeCont = s.closeCont := rfl
@[simp] theorem quiet_rxq (s : State) : (quiet s).rxq = s.rxq := rfl
@[simp] theorem quiet_params (s : State) : (quiet s).params = s.params := rfl
@[simp] theorem quiet_inputs (s : State) : (quiet s).inputs = s.inputs := rfl
@[simp] theorem quiet_draw (s : State) : (quiet s).draw = s.draw := rfl
@[simp] theorem quiet_cfg (s : State) : (quiet s).cfg = s.cfg.map quietConfig := rfl
@[simp] theorem quiet_openReq (s : State) : (quiet s).openReq = s.openReq.map quietConfig := rfl
@[simp] theorem quiet_requests (s : State) : (quiet s).requests = s.requests.map quietWord := rfl

/-! What the block reads of a configuration does not include the flag. -/

/-- R145: the command in flight does not depend on the flag. -/
@[simp] theorem commandText_quiet (s : State) : commandText (quiet s) = commandText s := by
  unfold commandText
  cases hp : s.ph <;> simp [hp, quietConfig, Function.comp_def]

/-- R57: the permission to time out does not depend on the flag. -/
@[simp] theorem mayTimeOut_quiet (s : State) : mayTimeOut (quiet s) = mayTimeOut s := by
  unfold mayTimeOut
  cases hc : s.cfg <;> simp [hc, quietConfig]

/-- R84: the request of a word with the flag off. -/
theorem decodeRequest_quiet (w : PortWord) : decodeRequest (quietWord w) = quietInstr (decodeRequest w) := by
  unfold decodeRequest quietWord
  split_ifs <;> rfl

/-! The shared operations. -/

/-- R54: a write. -/
theorem txWrite_quiet (bs : ByteString) (s : State) :
    txWrite bs (quiet s) = ((txWrite bs s).1, quiet (txWrite bs s).2) := by
  unfold txWrite
  rw [quiet_draw]
  cases s.draw.write <;> rfl

/-- R55: a one-byte read. -/
theorem rxReadExact1_quiet (s : State) :
    rxReadExact1 (quiet s) = ((rxReadExact1 s).1, quiet (rxReadExact1 s).2) := by
  unfold rxReadExact1
  simp only [quiet_draw, quiet_rxq, mayTimeOut_quiet]
  cases s.draw.read with
  | deliver | ioError | endOfStream => cases s.rxq <;> rfl
  | timeout lost =>
    cases s.rxq with
    | nil => split_ifs <;> rfl
    | cons b rest => rfl

/-- R56: a line read. -/
theorem rxReadUntilCR_quiet (s : State) :
    rxReadUntilCR (quiet s) = ((rxReadUntilCR s).1, quiet (rxReadUntilCR s).2) := by
  unfold rxReadUntilCR
  simp only [quiet_draw, quiet_rxq, mayTimeOut_quiet]
  cases s.draw.read with
  | deliver | ioError | endOfStream => cases splitAtCR s.rxq <;> rfl
  | timeout lost =>
    cases splitAtCR s.rxq with
    | none => split_ifs <;> rfl
    | some p => rfl

/-- R145: a failed command. -/
theorem commandFail_quiet (e : Error) (s : State) : commandFail e (quiet s) = quiet (commandFail e s) := by
  unfold commandFail
  rw [quiet_ph]
  cases s.ph <;> rfl

/-- R145: a completed command. -/
theorem commandDone_quiet (s : State) : commandDone (quiet s) = quiet (commandDone s) := by
  unfold commandDone
  rw [quiet_ph]
  cases s.ph <;> rfl

/-- R145: the write label. -/
theorem writeLabel_quiet (text : ByteString) (s : State) : writeLabel text (quiet s) = quiet (writeLabel text s) := by
  unfold writeLabel
  rw [txWrite_quiet]
  obtain ⟨a, v⟩ := txWrite (text ++ [cr]) s
  cases a with
  | ok => rfl
  | ioError => exact commandFail_quiet _ v

/-- R145, R146: the ACK label. -/
theorem ackLabel_quiet (text : ByteString) (s : State) : ackLabel text (quiet s) = quiet (ackLabel text s) := by
  unfold ackLabel
  rw [rxReadExact1_quiet]
  obtain ⟨a, v⟩ := rxReadExact1 s
  cases a with
  | byte b =>
    by_cases hb : isAck b = true
    · simp only [if_pos hb]; exact commandDone_quiet v
    · simp only [if_neg hb]; exact commandDone_quiet (warn text (some b) v)
  | timeout =>
    simp only [quiet_params]
    cases v.params.ackTimeoutPolicy with
    | warn => exact commandDone_quiet (warn text none v)
    | error => exact commandFail_quiet _ v
  | ioError => exact commandFail_quiet _ v
  | blocked => rfl

/-- R148: what a received run of bytes answers. -/
theorem receiveBytes_quiet (bs : ByteString) (s : State) : receiveBytes bs (quiet s) = quiet (receiveBytes bs s) := by
  unfold receiveBytes
  cases stripCR bs with
  | none => rfl
  | some line =>
    simp only [quiet_params]
    cases decodeLine s.params.hexAcceptLower line <;> rfl

/-- R148: the read label. -/
theorem readLabel_quiet (s : State) : readLabel (quiet s) = quiet (readLabel s) := by
  unfold readLabel
  rw [rxReadUntilCR_quiet]
  obtain ⟨a, v⟩ := rxReadUntilCR s
  cases a with
  | bytes bs => exact receiveBytes_quiet bs v
  | timeout | ioError | blocked => rfl

/-- R142: the acquisition. -/
theorem acquireLabel_quiet (c : AdapterConfig) (s : State) :
    acquireLabel (quietConfig c) (quiet s) = quiet (acquireLabel c s) := by
  unfold acquireLabel
  rw [quiet_draw]
  cases s.draw.acquire <;> rfl

/-- R149: the release. -/
theorem releaseLabel_quiet (s : State) : releaseLabel (quiet s) = quiet (releaseLabel s) := by
  unfold releaseLabel
  rw [quiet_closeCont]
  cases s.closeCont <;> rfl

/-- R149: the close line. -/
theorem closeLabel_quiet (s : State) : closeLabel (quiet s) = quiet (closeLabel s) := by
  unfold closeLabel
  rw [txWrite_quiet]
  rfl

/-- R150: teardown. -/
theorem tearDown_quiet (s : State) : tearDown (quiet s) = quiet (tearDown s) := by
  by_cases hc : s.ph = .clWrite ∨ s.ph = .clRelease
  · rw [tearDown_closing hc, tearDown_closing (s := quiet s) hc]
    rfl
  · rw [not_or] at hc
    rw [tearDown_not_closing hc.1 hc.2, tearDown_not_closing (s := quiet s) hc.1 hc.2]
    rw [apply_ite quiet]
    rfl

/-! Acceptance, the handle, and the instructions. -/

/-- R140: acceptance. -/
theorem accept_quiet (s : State) {next next' : State} (h : next' = quiet next) :
    accept (quiet s) next' = mapNext quiet (accept s next) := by
  rw [h]
  by_cases hn : s.halted = true <;> by_cases hp : s.ph = .idle <;> simp [accept, mapNext, hn, hp]

/-- R24: a primitive with the handle held. -/
theorem withHandle_quiet (s : State) {next next' : State} (h : next' = quiet next) :
    withHandle (quiet s) next' = mapNext quiet (withHandle s next) := by
  rw [h]
  by_cases hh : s.held = true <;> simp [withHandle, mapNext, hh]

/-- R51, R145: an outgoing line. -/
theorem writeLine_quiet (label : Phase) (text : ByteString) (s : State) :
    writeLine label text (quiet s) = mapNext quiet (writeLine label text s) := by
  have hlabel := withHandle_quiet s (writeLabel_quiet text s)
  by_cases hn : s.halted = true <;> by_cases hp : s.ph = label ∧ commandText s = some text <;>
    simp [writeLine, mapNext, hn, hp, hlabel]

/-- R145: one label of sendCommand. -/
theorem execSendCmd_quiet (text : ByteString) (s : State) :
    execSendCmd text (quiet s) = mapNext quiet (execSendCmd text s) := by
  have hcommand : commandLabel text (quiet s) = quiet (commandLabel text s) := by
    unfold commandLabel
    rw [quiet_ph, writeLabel_quiet, ackLabel_quiet]
    split_ifs <;> rfl
  have hlabel := withHandle_quiet s hcommand
  by_cases hn : s.halted = true <;> by_cases hc : commandText s = some text <;> simp [execSendCmd, mapNext, hn, hc, hlabel]

/-- R142: OPEN, with the flag of its operand off. -/
theorem execOpenReq_quiet (c : AdapterConfig) (s : State) :
    execOpenReq (quietConfig c) (quiet s) = mapNext quiet (execOpenReq c s) := by
  have hquiet : (quietConfig c).wf = c.wf := rfl
  rw [execOpenReq, execOpenReq, hquiet]
  by_cases hwf : c.wf = true
  · rw [if_pos hwf, if_pos hwf]
    exact accept_quiet s (by rw [apply_ite quiet]; rfl)
  · rw [if_neg hwf, if_neg hwf]
    rfl

/-- R214: every instruction does the same with the flag off. -/
theorem exec_quiet (i : Instr) (s : State) : exec (quietInstr i) (quiet s) = mapNext quiet (exec i s) := by
  cases i with
  | encode f => exact accept_quiet s (by cases encodeFrame f <;> rfl)
  | decode l => exact accept_quiet s (by simp only [quiet_params]; cases decodeLine s.params.hexAcceptLower l <;> rfl)
  | openReq c => exact execOpenReq_quiet c s
  | send f => exact accept_quiet s (by rw [apply_ite quiet]; cases encodeFrame f <;> rfl)
  | receive => exact accept_quiet s (by rw [apply_ite quiet]; rfl)
  | close => exact accept_quiet s (by rw [apply_ite quiet]; rfl)
  | reserved000 | reserved111 | wireRx | wireAck => rfl
  | teardown =>
    by_cases hn : s.halted = true <;> simp [exec, quietInstr, execTeardown, mapNext, hn, tearDown_quiet]
  | sendCmd text => exact execSendCmd_quiet text s
  | wireTx f =>
    cases henc : encodeFrame f with
    | ok line =>
      change exec (.wireTx f) (quiet s) = _
      rw [exec_wireTx henc, exec_wireTx henc, writeLine_quiet]
    | error r => simp [quietInstr, exec, execWireTx, henc, mapNext]
  | wireS n => exact writeLine_quiet _ _ s
  | wireO => exact writeLine_quiet _ _ s
  | wireC =>
    have hlabel := withHandle_quiet s (closeLabel_quiet s)
    by_cases hn : s.halted = true <;> by_cases hp : s.ph = .clWrite <;>
      simp [quietInstr, exec, execWireC, mapNext, hn, hp, hlabel]

/-! Moves and steps. -/

/-- R145: the row at a command label. -/
theorem outgoing_quiet (text : ByteString) (s : State) : outgoing text (quiet s) = quietInstr (outgoing text s) := by
  have hsame : outgoing text (quiet s) = outgoing text s := rfl
  rw [hsame]
  unfold outgoing
  split <;> rfl

/-- R160: what an arrival runs. -/
theorem arriving_quiet (bytes : ByteString) (s : State) : arriving bytes (quiet s) = quietMove (arriving bytes s) := by
  have hsame : arriving bytes (quiet s) = arriving bytes s := rfl
  rw [hsame]
  unfold arriving
  split <;> rfl

/-- R160: the session's move. -/
theorem sessionMove_quiet (s : State) :
    sessionMove (quiet s) = (quietMove (sessionMove s).1, quiet (sessionMove s).2) := by
  unfold sessionMove
  simp only [quiet_ph, commandText_quiet, quiet_requests]
  cases hp : s.ph with
  | idle =>
    cases hr : s.requests with
    | nil => rfl
    | cons w ws => simp only [List.map_cons, decodeRequest_quiet]; rfl
  | opAcquire | rcRead | clWrite | clRelease => rfl
  | _ =>
    cases hc : commandText s with
    | none => rfl
    | some text => simp only [outgoing_quiet]; rfl

/-- R160: the next move. -/
theorem nextMove_quiet (s : State) : nextMove (quiet s) = (quietMove (nextMove s).1, quiet (nextMove s).2) := by
  by_cases hn : s.halted = true
  · rw [nextMove, nextMove, if_pos hn, if_pos (show (quiet s).halted = true from hn)]
    rfl
  · rw [nextMove, nextMove, if_neg hn, if_neg (show ¬(quiet s).halted = true from hn), quiet_inputs]
    match s.inputs with
    | .append bytes :: rest => simp only [arriving_quiet]; rfl
    | .teardown :: rest => rfl
    | .session d :: rest => exact sessionMove_quiet { s with inputs := rest, draw := d }
    | [] => exact sessionMove_quiet (freeDrawn s)

/-- R160: what a move does. -/
theorem perform_quiet (m : Move) (s : State) : perform (quietMove m) (quiet s) = mapNext quiet (perform m s) := by
  cases m with
  | run i => exact exec_quiet i s
  | acquire =>
    change acquireStep (quiet s) = mapNext quiet (acquireStep s)
    unfold acquireStep
    rw [quiet_openReq]
    cases s.openReq with
    | none => rfl
    | some c => exact congrArg Host.Outcome.next (acquireLabel_quiet c s)
  | read => exact withHandle_quiet s (readLabel_quiet s)
  | release => exact withHandle_quiet s (releaseLabel_quiet s)
  | append | wait | ended | noConfig => rfl

/-- R214: taking the flags out commutes with a step. -/
theorem step_quiet (s : State) : step (quiet s) = mapNext quiet (step s) := by
  rw [step, nextMove_quiet, perform_quiet, step]

/-- R214: taking the flags out commutes with a run. -/
theorem runFor_quiet (k : Nat) (s : State) : runFor k (quiet s) = (runFor k s).map quiet := by
  induction k generalizing s with
  | zero => rfl
  | succ k ih =>
    simp only [runFor, step_quiet]
    cases step s with
    | next t => exact ih t
    | fault r => rfl
    | refused r => rfl

/-- R41, R214: nothing that is observed is a flag. -/
theorem observe_runFor_quiet (k : Nat) (s : State) : (runFor k (quiet s)).map observe = (runFor k s).map observe := by
  rw [runFor_quiet, Option.map_map]
  rfl

/-- Settles O60: both runs are observed as the run of the state with the flags out. -/
theorem debugFlagIsUnobservable : Obligations.DebugFlagIsUnobservable := by
  intro k s s' h
  rw [← observe_runFor_quiet k s, h, observe_runFor_quiet k s']

end Sys2Proof.Machine
end
